-- ==== Sys2Proof/Word.lean ====
section
/-! DEFINITION. The words of CRC8F: 8-bit bytes and 32-bit bus words (00_scope.md R10: bit 0 is the least
significant bit, every value is unsigned). -/

namespace Sys2Proof

/-- A byte (00_scope.md R10). -/
abbrev Byte := BitVec 8

/-- A bus word, and a command word (`DATA_W = 32`, 00_scope.md R9; 30_encoding.md R90). -/
abbrev Word := BitVec 32

end Sys2Proof
end

