-- ==== Sys2Proof/Machine/Ports.lean ====
section
/-! DEFINITION. The ports of CRC8F (00_scope.md R18): one cycle's inputs and outputs. -/

namespace Sys2Proof.Machine

/-- A bus request (`req_valid = 1`): 00_scope.md R18. -/
structure Request where
  write : Bool
  addr : BitVec 8
  wdata : Word
  wstrb : BitVec 4
  deriving DecidableEq, Repr

/-- The inputs of one cycle (00_scope.md R6, R18). No request is `req_valid = 0`. -/
structure Inputs where
  rst : Bool
  tick : Bool
  req : Option Request
  deriving DecidableEq, Repr, Inhabited

/-- The bus response of one cycle (00_scope.md R18, R19). -/
structure Response where
  rdata : Word
  err : Bool
  deriving DecidableEq, Repr

/-- The outputs of one cycle: `resp_rdata`, `resp_err`, `irq` (00_scope.md R18). -/
structure Outputs where
  resp : Response
  irq : Bool
  deriving DecidableEq, Repr

end Sys2Proof.Machine
end

