-- ==== Sys2Proof/Config.lean ====
section
/-! DEFINITION. What an implementation of CRC8F fixes, and the values its spec leaves OPEN (00_scope.md R7, R8, R9;
92_eei_decisions.md: `LAT`, `BUF_INIT`, `TICK_PERIOD`). The opaque constants have no body: a theorem about the model
holds for every value of them. -/

namespace Sys2Proof.Config

/-- `ID_VALUE`: the ASCII bytes "CRC8" (00_scope.md R9, 10_state.md R23). -/
def idValue : Word := 0x43524338

/-- `POLY` (00_scope.md R7). -/
def poly : Byte := 0x07

/-- `CRC_INIT` (00_scope.md R7). -/
def crcInit : Byte := 0x00

/-- `INJ_MASK` (00_scope.md R7). -/
def injMask : Byte := 0x02

/-- `BUF_N`, the length of each of the buffers `PLD`, `TXF` and `RXF` (00_scope.md R9). -/
def bufN : Nat := 32

/-- FREE VALUE (log 3): `LAT - 1`, so that `1 <= LAT <= 32` (70_reset_and_hazards.md R262). It may depend on the
command word and on the two length registers, as R262's reference table does. -/
opaque latency (word : Word) (rxlen txlen : Byte) : Fin 32

/-- FREE VALUE (log 4): `BUF_INIT`, the byte that a buffer offset holds after a reset until it is written
(70_reset_and_hazards.md R242). It may depend on everything the buffers held at this and every earlier reset
(newest first), because it "may or may not be the value from before the reset". -/
opaque bufInit (history : List (List Host.Cell)) (offset : Nat) : Byte

/-- FREE VALUE (log 2): the inputs of a cycle that the model's input list does not give (00_scope.md R6:
`rst`, `tick` and the request are free inputs of every cycle). -/
opaque freeInput (cycle : Nat) : Machine.Inputs

end Sys2Proof.Config
end

