-- ==== Sys2Proof/Machine/Crc8.lean ====
section
/-! DEFINITION. The CRC8 function (40_crc.md R120, R121): the remainder table and the fold. -/

namespace Sys2Proof.Machine

/-- One step of the table algorithm: test the top bit, shift left, and XOR the polynomial if the bit was set
(40_crc.md R120). -/
def crcShift (r : Byte) : Byte :=
  if r.getLsbD 7 then (r <<< 1) ^^^ Config.poly else r <<< 1

/-- `T[d]`: eight steps from `d` (40_crc.md R120). -/
def crcTable (d : Byte) : Byte :=
  crcShift (crcShift (crcShift (crcShift (crcShift (crcShift (crcShift (crcShift d)))))))

/-- `fold(r, s)`: `r <- T[s[i] ^ r]` in index order (40_crc.md R121, R122; 90_conflicts.md C1). -/
def crcFold : Byte → List Byte → Byte
  | r, [] => r
  | r, b :: bs => crcFold (crcTable (b ^^^ r)) bs

/-- `CRC8(s) = fold(0x00, s)` (40_crc.md R121). -/
def crc8 (bs : List Byte) : Byte :=
  crcFold Config.crcInit bs

end Sys2Proof.Machine
end

