-- ==== Sys2Proof/Syntax.lean ====
section
/-! DEFINITION. The command set CRC8F-CMD, one constructor per row of spec/opcode_table.json. Operands are the
fields of the command word that the row leaves free (30_encoding.md R91, R92). -/

namespace Sys2Proof

/-- `KIND`: 0 is ACK, 1 is NAK (30_encoding.md R92, rows FRAME_ACK and FRAME_SWTAG). -/
inductive Kind where
  | ack
  | nak
  deriving DecidableEq, Repr

/-- The commands of 30_encoding.md R92. The two reserved opcodes carry bits 31:4 of their word, which may hold
anything (R96). -/
inductive Instr where
  /-- `NOP` (43_control.md R180). -/
  | nop
  /-- `CRC_CLR` (40_crc.md R125). -/
  | crcClr
  /-- `CRC_BYTE b` (40_crc.md R126). -/
  | crcByte (data : Byte)
  /-- `CRC_PLD n` (40_crc.md R127). -/
  | crcPld (len : Byte)
  /-- `FRAME_DATA n` (`hasSeq` false) and `FRAME_DATA.S s, n` (41_framing.md R140). -/
  | frameData (hasSeq : Bool) (seq len : Byte)
  /-- `FRAME_ACK s` and `FRAME_NAK s` (41_framing.md R142). -/
  | frameAck (kind : Kind) (seq : Byte)
  /-- `SWTAG_ACK`, `SWTAG_NAK` and their `.S q` forms (41_framing.md R144). -/
  | frameSwtag (kind : Kind) (hasSeq : Bool) (seq : Byte)
  /-- `FRAME_TEARDOWN` (41_framing.md R146). -/
  | frameTeardown
  /-- `CHECK` and `CHECK.S` (42_check_and_test.md R160). -/
  | check (hasSeq : Bool)
  /-- `INJECT` (42_check_and_test.md R166). -/
  | inject
  /-- `LOOPBACK` (42_check_and_test.md R167). -/
  | loopback
  /-- `TMR_ARM` (43_control.md R181). -/
  | tmrArm
  /-- `TMR_DISARM` (43_control.md R182). -/
  | tmrDisarm
  /-- `RETRY_CLR` (43_control.md R183). -/
  | retryClr
  /-- Reserved opcode `0xE` (43_control.md R184). -/
  | reservedE (rest : BitVec 28)
  /-- Reserved opcode `0xF` (43_control.md R184). -/
  | reservedF (rest : BitVec 28)
  deriving DecidableEq, Repr

end Sys2Proof
end

