-- ==== Sys2Proof/Decode.lean ====
section
/-! DEFINITION. The decoder and the encoder of CMD32 (30_encoding.md R90 to R98). The decoder selects the command by
`OP` alone and then checks the fields that R92 fixes to zero whatever the other fields hold (R93). The conditional
zeros of R94 (`SEQ` when `HAS_SEQ = 0`) are kept in the decoded command and checked at acceptance, where their
cause is the same (log 13). -/

namespace Sys2Proof

/-- The fields of a command word (30_encoding.md R91, `decode` of R98). -/
def Word.opField (w : Word) : BitVec 4 := w.extractLsb' 0 4
/-- `SUB[0]`: `HAS_SEQ` or `KIND` (R91). -/
def Word.sub0 (w : Word) : Bool := w.getLsbD 4
/-- `SUB[1]`: `HAS_SEQ` of FRAME_SWTAG (R91). -/
def Word.sub1 (w : Word) : Bool := w.getLsbD 5
/-- `SEQ` (R91). -/
def Word.seqField (w : Word) : Byte := w.extractLsb' 8 8
/-- `LEN` (R91). -/
def Word.lenField (w : Word) : Byte := w.extractLsb' 16 8
/-- `DATA` (R91). -/
def Word.dataField (w : Word) : Byte := w.extractLsb' 24 8

/-- `KIND` 0 is ACK, 1 is NAK (R92). -/
def Kind.ofBit : Bool → Kind
  | false => .ack
  | true => .nak

/-- The bit that stands for a kind (R92). -/
def Kind.bit : Kind → Bool
  | .ack => false
  | .nak => true

/-- Why a word decodes to no command. -/
inductive DecodeError where
  /-- A field that R92 fixes to 0 is nonzero: cause RSVD_FIELD, with the word's `OP` (R94). -/
  | reservedField (op : BitVec 4)
  deriving DecidableEq, Repr

/-- The command, if every bit of `zeros` is 0 in the word (R93, R94). -/
def withZeros (w zeros : Word) (i : Instr) : Except DecodeError Instr :=
  if w &&& zeros = 0 then .ok i else .error (.reservedField w.opField)

/-- Total on every 32-bit word (R98). The masks are the bits of opcode_table.json's `mask` above `OP`. -/
def decode (w : Word) : Except DecodeError Instr :=
  match w.opField with
  | 0x0#4 => withZeros w 0xFFFFFFF0#32 .nop
  | 0x1#4 => withZeros w 0xFFFFFFF0#32 .crcClr
  | 0x2#4 => withZeros w 0x00FFFFF0#32 (.crcByte w.dataField)
  | 0x3#4 => withZeros w 0xFF00FFF0#32 (.crcPld w.lenField)
  | 0x4#4 => withZeros w 0xFF0000E0#32 (.frameData w.sub0 w.seqField w.lenField)
  | 0x5#4 => withZeros w 0xFFFF00E0#32 (.frameAck (Kind.ofBit w.sub0) w.seqField)
  | 0x6#4 => withZeros w 0xFFFF00C0#32 (.frameSwtag (Kind.ofBit w.sub0) w.sub1 w.seqField)
  | 0x7#4 => withZeros w 0xFFFFFFF0#32 .frameTeardown
  | 0x8#4 => withZeros w 0xFFFFFFE0#32 (.check w.sub0)
  | 0x9#4 => withZeros w 0xFFFFFFF0#32 .inject
  | 0xA#4 => withZeros w 0xFFFFFFF0#32 .loopback
  | 0xB#4 => withZeros w 0xFFFFFFF0#32 .tmrArm
  | 0xC#4 => withZeros w 0xFFFFFFF0#32 .tmrDisarm
  | 0xD#4 => withZeros w 0xFFFFFFF0#32 .retryClr
  | 0xE#4 => .ok (.reservedE (w.extractLsb' 4 28))
  | _ => .ok (.reservedF (w.extractLsb' 4 28)) -- only 0xF is left

/-- `encode(OP, SUB, SEQ, LEN, DATA)` of 30_encoding.md R98, as the concatenation of the fields of R91. -/
def assemble (op sub : BitVec 4) (seq len data : Byte) : Word :=
  data ++ len ++ seq ++ sub ++ op

/-- The `SUB` field from its flags: bits 3:2 are 0 for every command (R92). -/
def subField (sub1 sub0 : Bool) : BitVec 4 :=
  0#2 ++ BitVec.ofBool sub1 ++ BitVec.ofBool sub0

/-- The opcode of each command (R92, R93). -/
def Instr.opcode : Instr → BitVec 4
  | .nop => 0x0
  | .crcClr => 0x1
  | .crcByte _ => 0x2
  | .crcPld _ => 0x3
  | .frameData _ _ _ => 0x4
  | .frameAck _ _ => 0x5
  | .frameSwtag _ _ _ => 0x6
  | .frameTeardown => 0x7
  | .check _ => 0x8
  | .inject => 0x9
  | .loopback => 0xA
  | .tmrArm => 0xB
  | .tmrDisarm => 0xC
  | .retryClr => 0xD
  | .reservedE _ => 0xE
  | .reservedF _ => 0xF

/-- The word of each command (R92, R99). -/
def encode : Instr → Word
  | .nop => assemble 0x0 0 0 0 0
  | .crcClr => assemble 0x1 0 0 0 0
  | .crcByte data => assemble 0x2 0 0 0 data
  | .crcPld len => assemble 0x3 0 0 len 0
  | .frameData hasSeq seq len => assemble 0x4 (subField false hasSeq) seq len 0
  | .frameAck kind seq => assemble 0x5 (subField false kind.bit) seq 0 0
  | .frameSwtag kind hasSeq seq => assemble 0x6 (subField hasSeq kind.bit) seq 0 0
  | .frameTeardown => assemble 0x7 0 0 0 0
  | .check hasSeq => assemble 0x8 (subField false hasSeq) 0 0 0
  | .inject => assemble 0x9 0 0 0 0
  | .loopback => assemble 0xA 0 0 0 0
  | .tmrArm => assemble 0xB 0 0 0 0
  | .tmrDisarm => assemble 0xC 0 0 0 0
  | .retryClr => assemble 0xD 0 0 0 0
  | .reservedE rest => rest ++ 0xE#4
  | .reservedF rest => rest ++ 0xF#4

/-- The command the decoder reads from a word whose low `nbits` bits are given; the bits above are 0. A command
is one 32-bit word (R90), so it has no byte order of its own: it is the bus word of the `CMD` write. -/
def decodeTableWord (nbits w : Nat) : Option Instr :=
  match decode (BitVec.ofNat 32 (w % 2 ^ nbits)) with
  | .ok i => some i
  | .error _ => none

end Sys2Proof
end

