-- ==== Sys2Proof/Machine/State.lean ====
section
/-! DEFINITION. The state of CRC8F: exactly the architectural state of 10_state.md R22, and the model's own fields
(the inputs to come, the outputs of the last cycle, and the arguments of the free values). -/

namespace Sys2Proof.Machine

/-- CRC8F "never traps, halts or locks up" (60_exceptions.md R200): every error is a next state, so no step ends in
a fault and this type has no constructor (log 15). Safe: nothing can be raised. -/
inductive Fault where
  deriving DecidableEq, Repr

/-- Why a step could have no meaning. -/
inductive Refusal where
  /-- Reserved for an arm of `exec` without a meaning. No arm raises it: every command has its meaning. Safe. -/
  | notModelled (mnemonic : String)
  deriving DecidableEq, Repr

/-- `CTRL`, four interrupt enables (10_state.md R24). -/
structure Ctrl where
  ieDone : Bool
  ieErr : Bool
  ieTmo : Bool
  ieExh : Bool
  deriving DecidableEq, Repr

/-- The stored bits of `STATUS` (10_state.md R25). `BUSY` (R26) and `RETRY_EXH` (R31) are derived. -/
structure Status where
  done : Bool
  errIll : Bool
  errOvr : Bool
  timeout : Bool
  armed : Bool
  rxValid : Bool
  crcOk : Bool
  teardown : Bool
  isAck : Bool
  isNak : Bool
  deriving DecidableEq, Repr

/-- `RXINFO` (10_state.md R38). -/
structure RxInfo where
  seq : Byte
  poff : Byte
  plen : Byte
  deriving DecidableEq, Repr

/-- `RETRY` (10_state.md R42). -/
structure Retry where
  cnt : BitVec 16
  limit : BitVec 16
  deriving DecidableEq, Repr

/-- `ERR` (10_state.md R43). -/
structure ErrReg where
  cause : BitVec 4
  op : BitVec 4
  deriving DecidableEq, Repr

/-- A pending command: `Some(word, remaining)` of 10_state.md R49. -/
structure Pending where
  word : Word
  remaining : Nat
  deriving DecidableEq, Repr

/-- The three buffers, by byte offset in the window (20_memory.md R61), as the list of the bytes written since the
last reset: offsets strictly rising. An unlisted offset has not been written since the reset (log 11). -/
abbrev Memory := List Host.Cell

/-- The state of CRC8F. `ID`, `T` and `CMD` hold no state of their own (10_state.md R23, R48, R44; log 12). -/
structure State where
  /-- `CTRL` (R24) -/
  ctrl : Ctrl
  /-- `STATUS` (R25) -/
  status : Status
  /-- `CRC.REM` (R35) -/
  crcRem : Byte
  /-- `TXLEN` (R36) -/
  txlen : Byte
  /-- `RXLEN` (R37) -/
  rxlen : Byte
  /-- `RXINFO` (R38) -/
  rxinfo : RxInfo
  /-- `TABLE.IDX` (R39) -/
  tableIdx : Byte
  /-- `TLOAD` (R40) -/
  tload : Word
  /-- `TCNT` (R41) -/
  tcnt : Word
  /-- `RETRY` (R42) -/
  retry : Retry
  /-- `ERR` (R43) -/
  err : ErrReg
  /-- `PEND` (R49) -/
  pend : Option Pending
  /-- `PLD`, `TXF` and `RXF` (R45, R46, R47) -/
  mem : Memory
  /-- The model's: what `mem` was at this and each earlier reset, newest first (log 4) -/
  bufHist : List Memory
  /-- The model's: the inputs of the coming cycles, the next one first (log 1) -/
  inputs : List Inputs
  /-- The model's: the cycles stepped so far, the argument of `Config.freeInput` (log 2) -/
  cycle : Nat
  /-- The model's: the outputs of the cycle last stepped (log 1) -/
  out : Outputs
  deriving DecidableEq, Repr

/-- The state after reset (70_reset_and_hazards.md R241, R242). The model's own fields start empty (log 10). -/
def State.reset : State where
  ctrl := ⟨false, false, false, false⟩
  status := ⟨false, false, false, false, false, false, false, false, false, false⟩
  crcRem := 0
  txlen := 0
  rxlen := 0
  rxinfo := ⟨0, 0, 0⟩
  tableIdx := 0
  tload := 0
  tcnt := 0
  retry := ⟨0, 0⟩
  err := ⟨0, 0⟩
  pend := none
  mem := []
  bufHist := []
  inputs := []
  cycle := 0
  out := ⟨⟨0, false⟩, false⟩

end Sys2Proof.Machine
end

