-- ==== Sys2Proof/Machine/Ops.lean ====
section
/-! DEFINITION. The named operations over the buffers, the error registers and the pending command: every command and
every bus write is written over these. -/

namespace Sys2Proof.Machine

/-- What a step answers. -/
abbrev Result := Host.Outcome State Fault Refusal

/-- Goes on with the next state, and stops where the first part stops. -/
def andThen (r : Result) (f : State → Result) : Result :=
  match r with
  | .next s => f s
  | .fault e => .fault e
  | .refused e => .refused e

/-! ### Memory: the three buffers -/

/-- The byte written at an offset since the last reset, if one was (log 11). -/
def Memory.read : Memory → Nat → Option Byte
  | [], _ => none
  | (b, v) :: m, a => if a = b then some v else Memory.read m a

/-- Writes a byte and keeps the offsets strictly rising. -/
def Memory.write : Memory → Nat → Byte → Memory
  | [], a, v => [(a, v)]
  | (b, u) :: m, a, v =>
    if a < b then (a, v) :: (b, u) :: m
    else if a = b then (a, v) :: m
    else (b, u) :: Memory.write m a v

/-- The canonical form: offsets strictly rising, inside the buffer windows `0x40`..`0x9F` (20_memory.md R61). -/
abbrev Memory.wf (m : Memory) : Prop :=
  m.Pairwise (fun c d => c.1 < d.1) ∧ ∀ c ∈ m, 0x40 ≤ c.1 ∧ c.1 < 0xA0

/-- The three buffers (10_state.md R45, R46, R47). -/
inductive Buf where
  | pld
  | txf
  | rxf
  deriving DecidableEq, Repr

/-- The offset of a buffer's byte 0 (20_memory.md R61). -/
def Buf.base : Buf → Nat
  | .pld => 0x40
  | .txf => 0x60
  | .rxf => 0x80

/-- Writes byte `i` of a buffer; an index outside the buffer names no byte (log 7). -/
def Memory.setBuf (m : Memory) (b : Buf) (i : Nat) (v : Byte) : Memory :=
  if i < Config.bufN then m.write (b.base + i) v else m

/-- Writes bytes `k`, `k + 1`, … of a buffer. -/
def Memory.setBytes (m : Memory) (b : Buf) : Nat → List Byte → Memory
  | _, [] => m
  | k, v :: vs => Memory.setBytes (m.setBuf b k v) b (k + 1) vs

/-- Writes the lanes `k` with `strb[k] = 1` of a bus word to bytes `j + k` of a buffer: lane `k` is bits
`[8k+7:8k]` (20_memory.md R64, R65). -/
def Memory.setLanes (m : Memory) (b : Buf) (j : Nat) (wdata : Word) (strb : BitVec 4) : Memory :=
  [0, 1, 2, 3].foldl
    (fun m k => if strb.getLsbD k then m.setBuf b (j + k) (wdata.extractLsb' (8 * k) 8) else m) m

/-- What a buffer offset holds until it is written (70_reset_and_hazards.md R242; 20_memory.md R78; log 4). -/
def State.unwritten (s : State) (a : Nat) : Byte :=
  Config.bufInit s.bufHist a

/-- The byte at an offset of the buffer windows. -/
def State.readByte (s : State) (a : Nat) : Byte :=
  (s.mem.read a).getD (s.unwritten a)

/-- Byte `i` of a buffer (00_scope.md R12: `PLD[i]`, `TXF[i]`, `RXF[i]`). -/
def State.buf (s : State) (b : Buf) (i : Nat) : Byte :=
  s.readByte (b.base + i)

/-- Bytes `0..n-1` of a buffer; a buffer has no more than `BUF_N` bytes (log 7). -/
def State.bytes (s : State) (b : Buf) (n : Nat) : List Byte :=
  (List.range (min n Config.bufN)).map (s.buf b)

/-- Writes a byte sequence to a buffer from byte 0 on, in index order (20_memory.md R72). -/
def State.putBytes (s : State) (b : Buf) (vs : List Byte) : State :=
  { s with mem := s.mem.setBytes b 0 vs }

/-! ### Errors: the one way an error is recorded (60_exceptions.md R201 to R205) -/

/-- The causes of 60_exceptions.md R201. -/
inductive Cause where
  | rsvdOp
  | rsvdField
  | lenRange
  | seqRange
  | injTeardown
  | tloadZero
  | ovrCmd
  | ovrWrite
  deriving DecidableEq, Repr

/-- The code of a cause (R201). -/
def Cause.code : Cause → BitVec 4
  | .rsvdOp => 1
  | .rsvdField => 2
  | .lenRange => 3
  | .seqRange => 4
  | .injTeardown => 5
  | .tloadZero => 6
  | .ovrCmd => 7
  | .ovrWrite => 8

/-- First-error capture: `ERR` is written only while `ERR.CAUSE = 0` (R205, 10_state.md R43). -/
def ErrReg.capture (e : ErrReg) (c : Cause) (op : BitVec 4) : ErrReg :=
  if e.cause = 0 then ⟨c.code, op⟩ else e

/-- ILLEGAL: a command word is rejected at acceptance (R203). `op` is `word[3:0]`. -/
def State.raiseIllegal (s : State) (c : Cause) (op : BitVec 4) : State :=
  { s with
    status := { s.status with errIll := true, done := true }
    err := s.err.capture c op }

/-- OVERRUN: a busy-gated write arrives while `BUSY = 1` (R204). -/
def State.raiseOverrun (s : State) (c : Cause) (op : BitVec 4) : State :=
  { s with
    status := { s.status with errOvr := true }
    err := s.err.capture c op }

/-! ### The pending command (70_reset_and_hazards.md R250, R251) -/

/-- `LAT`, at least 1 and at most 32 (R262; log 3). -/
def State.latency (s : State) (w : Word) : Nat :=
  (Config.latency w s.rxlen s.txlen).val + 1

/-- Acceptance of a legal command: it becomes pending and `DONE` is cleared (R250). -/
def State.accept (s : State) (i : Instr) : State :=
  { s with
    pend := some ⟨encode i, s.latency (encode i)⟩
    status := { s.status with done := false } }

/-- What every completion does besides the command's own effects (R251). -/
def State.finish (s : State) : State :=
  { s with
    pend := none
    status := { s.status with done := true } }

/-- One cycle less to wait (R251, `k > 1`). -/
def State.countDown (s : State) (p : Pending) : State :=
  { s with pend := some { p with remaining := p.remaining - 1 } }

/-- The reset state in a cycle with `rst = 1` (70_reset_and_hazards.md R240, R241, R242, R261): every register at its
reset value, the pending command aborted, and the buffers unspecified again. The model's inputs, cycle count and
outputs are not the machine's state and go on (log 8). -/
def State.resetCycle (s : State) : State :=
  { State.reset with
    bufHist := s.mem :: s.bufHist
    inputs := s.inputs
    cycle := s.cycle
    out := s.out }

end Sys2Proof.Machine
end

