-- ==== Sys2Proof/WellFormed.lean ====
section
/-! DEFINITION. Which commands are legal as far as their word alone decides: the conditional zeros of
30_encoding.md R94, the operand ranges of R95 that read no state, and the reserved opcodes of R96. The checks
that read state (RXLEN, TXLEN, TXF, TLOAD) are acceptance checks of the machine (Machine/Operands.lean). -/

namespace Sys2Proof

/-- `SEQ` must be 0 when `HAS_SEQ = 0` (30_encoding.md R94). -/
def seqFieldFits (hasSeq : Bool) (seq : Byte) : Bool :=
  hasSeq || seq == 0

/-- A command is well formed when no check that reads only its word rejects it. -/
def Instr.wellFormed : Instr → Bool
  | .nop => true
  | .crcClr => true
  | .crcByte _ => true
  | .crcPld len => decide (len.toNat ≤ 32)
  | .frameData hasSeq seq len =>
    seqFieldFits hasSeq seq && decide (1 ≤ len.toNat) && decide (len.toNat ≤ 31 - hasSeq.toNat)
  | .frameAck _ _ => true
  | .frameSwtag _ hasSeq seq => seqFieldFits hasSeq seq && decide (seq.toNat ≤ 1)
  | .frameTeardown => true
  | .check _ => true
  | .inject => true
  | .loopback => true
  | .tmrArm => true
  | .tmrDisarm => true
  | .retryClr => true
  | .reservedE _ => false
  | .reservedF _ => false

end Sys2Proof
end

