-- ==== Sys2Proof/Machine/Operands.lean ====
section
/-! DEFINITION. The operands of the commands (the payload, the frames, the frame a command builds) and the acceptance
checks on them (30_encoding.md R94, R95; 60_exceptions.md R202). -/

namespace Sys2Proof.Machine

/-! ### Frames -/

/-- "ACK" or "NAK" (41_framing.md R142). -/
def Kind.text : Kind → List Byte
  | .ack => [0x41, 0x43, 0x4B]
  | .nak => [0x4E, 0x41, 0x4B]

/-- The optional sequence byte in front (41_framing.md R140, R144). -/
def seqBytes (hasSeq : Bool) (seq : Byte) : List Byte :=
  if hasSeq then [seq] else []

/-- A body and its genuine CRC8 (41_framing.md R140, R142). -/
def withCrc (body : List Byte) : List Byte :=
  body ++ [crc8 body]

/-- The data frame (41_framing.md R140). -/
def dataFrame (hasSeq : Bool) (seq : Byte) (payload : List Byte) : List Byte :=
  withCrc (seqBytes hasSeq seq ++ payload)

/-- The acknowledgment frame with a genuine CRC (41_framing.md R142). -/
def ackFrame (kind : Kind) (seq : Byte) : List Byte :=
  withCrc (seq :: Kind.text kind)

/-- `TAG(KIND, HAS_SEQ, q)`, never computed from the bytes (41_framing.md R145; 90_conflicts.md C2). `q` is
`SEQ[0]`. -/
def swTag (kind : Kind) (hasSeq q : Bool) : Byte :=
  match kind with
  | .nak => 0x12
  | .ack => if hasSeq && q then 0x69 else 0x7F

/-- The stop-and-wait tag frame (41_framing.md R144). Its sequence byte is `q = SEQ[0]`. -/
def tagFrame (kind : Kind) (hasSeq : Bool) (seq : Byte) : List Byte :=
  seqBytes hasSeq (seq &&& 1) ++ Kind.text kind ++ [swTag kind hasSeq (seq.getLsbD 0)]

/-- The teardown sentinel `00 30 30 90` (41_framing.md R146; 90_conflicts.md C3). -/
def teardownFrame : List Byte :=
  [0x00, 0x30, 0x30, 0x90]

/-- `TXF[0..TXLEN-1]`. -/
def State.txFrame (s : State) : List Byte :=
  s.bytes .txf s.txlen.toNat

/-- `RXF[0..RXLEN-1]`. -/
def State.rxFrame (s : State) : List Byte :=
  s.bytes .rxf s.rxlen.toNat

/-- The payload window of a frame: between the sequence byte and the trailer (42_check_and_test.md R163). -/
def payloadOf (hasSeq : Bool) (frame : List Byte) : List Byte :=
  (frame.drop hasSeq.toNat).dropLast

/-- Builds a frame in `TXF` and sets `TXLEN` (41_framing.md R147): bytes at or above the new length stay. -/
def State.putFrame (s : State) (frame : List Byte) : State :=
  { s.putBytes .txf frame with txlen := BitVec.ofNat 8 frame.length }

/-! ### Acceptance checks -/

/-- A cause, unless the check passes. -/
def causeUnless (ok : Bool) (c : Cause) : Option Cause :=
  if ok then none else some c

/-- CRC_PLD: `LEN <= 32` (30_encoding.md R95). -/
def crcPldCause (len : Byte) : Option Cause :=
  causeUnless (decide (len.toNat ≤ Config.bufN)) .lenRange

/-- FRAME_DATA: the conditional zero, then `1 <= LEN <= 31 - HAS_SEQ` (41_framing.md R140). -/
def frameDataCause (hasSeq : Bool) (seq len : Byte) : Option Cause :=
  (causeUnless (seqFieldFits hasSeq seq) .rsvdField).or
    (causeUnless (decide (1 ≤ len.toNat ∧ len.toNat ≤ 31 - hasSeq.toNat)) .lenRange)

/-- FRAME_SWTAG: the conditional zero, then `SEQ[7:1] = 0` (41_framing.md R144). -/
def frameSwtagCause (hasSeq : Bool) (seq : Byte) : Option Cause :=
  (causeUnless (seqFieldFits hasSeq seq) .rsvdField).or
    (causeUnless (!hasSeq || seq.extractLsb' 1 7 == 0) .seqRange)

/-- CHECK: `1 + HAS_SEQ <= RXLEN <= 32` (42_check_and_test.md R160). -/
def checkCause (hasSeq : Bool) (s : State) : Option Cause :=
  causeUnless (decide (1 + hasSeq.toNat ≤ s.rxlen.toNat ∧ s.rxlen.toNat ≤ Config.bufN)) .lenRange

/-- `TXLEN >= 2` (30_encoding.md R95, INJECT and LOOPBACK). -/
def txlenCause (s : State) : Option Cause :=
  causeUnless (decide (2 ≤ s.txlen.toNat)) .lenRange

/-- INJECT: `TXLEN >= 2`, then the frame is not the teardown frame (42_check_and_test.md R166). -/
def injectCause (s : State) : Option Cause :=
  (txlenCause s).or
    (causeUnless (!(s.txlen == 4 && s.bytes .txf 4 == teardownFrame)) .injTeardown)

/-- TMR_ARM: `TLOAD != 0` (43_control.md R181). -/
def tmrArmCause (s : State) : Option Cause :=
  causeUnless (s.tload != 0) .tloadZero

/-- `first_cause(s, w)` of 70_reset_and_hazards.md R250 on a decoded command: the first check that fails, in the order
of 60_exceptions.md R202; `none` if the command is legal. -/
def State.firstCause (s : State) : Instr → Option Cause
  | .nop => none
  | .crcClr => none
  | .crcByte _ => none
  | .crcPld len => crcPldCause len
  | .frameData hasSeq seq len => frameDataCause hasSeq seq len
  | .frameAck _ _ => none
  | .frameSwtag _ hasSeq seq => frameSwtagCause hasSeq seq
  | .frameTeardown => none
  | .check hasSeq => checkCause hasSeq s
  | .inject => injectCause s
  | .loopback => txlenCause s
  | .tmrArm => tmrArmCause s
  | .tmrDisarm => none
  | .retryClr => none
  | .reservedE _ => some .rsvdOp
  | .reservedF _ => some .rsvdOp

/-! ### The two phases of a command -/

/-- A command meets the machine twice (00_scope.md R15; log 5). While nothing is pending it is presented to
acceptance: rejected with its first cause (60_exceptions.md R203), or made pending (70_reset_and_hazards.md R250).
While a command is pending it is the command that completes: its effects and the common flags (R251). -/
def State.runCommand (s : State) (i : Instr) (effects : State → State) : Result :=
  match s.pend with
  | none =>
    match s.firstCause i with
    | some c => .next (s.raiseIllegal c i.opcode)
    | none => .next (s.accept i)
  | some _ => .next (effects s).finish

end Sys2Proof.Machine
end

