-- ==== Sys2Proof/Machine/Flags.lean ====
section
/-! DEFINITION. Every flag of CRC8F: the derived bits of STATUS, the bus images of CTRL and STATUS, the W1C write, the
interrupt output, and the results of CHECK. -/

namespace Sys2Proof.Machine

/-- `STATUS.BUSY = (PEND != None)` (10_state.md R26). -/
def State.busy (s : State) : Bool :=
  s.pend.isSome

/-- `STATUS.RETRY_EXH = (LIMIT != 0) and (CNT >= LIMIT)` (10_state.md R31). -/
def State.retryExh (s : State) : Bool :=
  s.retry.limit != 0 && decide (s.retry.limit.toNat ≤ s.retry.cnt.toNat)

/-- `STATUS` as the bus reads it (10_state.md R25): bit 0 first; bits 31:12 read 0. -/
def State.statusWord (s : State) : Word :=
  (BitVec.ofBoolListLE
    [s.busy, s.status.done, s.status.errIll, s.status.errOvr, s.status.timeout, s.retryExh,
      s.status.armed, s.status.rxValid, s.status.crcOk, s.status.teardown, s.status.isAck,
      s.status.isNak]).setWidth 32

/-- `CTRL` as the bus reads it (10_state.md R24). -/
def Ctrl.toWord (c : Ctrl) : Word :=
  (BitVec.ofBoolListLE [c.ieDone, c.ieErr, c.ieTmo, c.ieExh]).setWidth 32

/-- `CTRL` as the bus writes it; bits 31:4 are ignored (10_state.md R24). -/
def Ctrl.ofWord (w : Word) : Ctrl :=
  ⟨w.getLsbD 0, w.getLsbD 1, w.getLsbD 2, w.getLsbD 3⟩

/-- A W1C write to `STATUS` (10_state.md R25): a 1 in bit 1, 2, 3 or 4 clears that bit, except that a bit which an
event of the same cycle sets stays 1 (70_reset_and_hazards.md R254). The events that can meet a STATUS write are a
completion (`DONE`) and a timer expiry (`TIMEOUT`). -/
def Status.clearWritten (f : Status) (w : Word) (completes expires : Bool) : Status :=
  { f with
    done := f.done && (!w.getLsbD 1 || completes)
    errIll := f.errIll && !w.getLsbD 2
    errOvr := f.errOvr && !w.getLsbD 3
    timeout := f.timeout && (!w.getLsbD 4 || expires) }

/-- The level interrupt output (60_exceptions.md R210). -/
def State.irq (s : State) : Bool :=
  (s.status.done && s.ctrl.ieDone)
    || ((s.status.errIll || s.status.errOvr) && s.ctrl.ieErr)
    || (s.status.timeout && s.ctrl.ieTmo)
    || (s.retryExh && s.ctrl.ieExh)

/-- What CHECK reports of a frame (42_check_and_test.md R160 to R164): the four result flags and `RXINFO`. -/
structure CheckResult where
  crcOk : Bool
  teardown : Bool
  isAck : Bool
  isNak : Bool
  info : RxInfo
  deriving DecidableEq, Repr

/-- The decode of a frame of length `len` (42_check_and_test.md R160): the teardown by exact match first (R161), then
the fold (R162), the fields (R163) and the text (R164). -/
def checkFrame (hasSeq : Bool) (len : Byte) (frame : List Byte) : CheckResult :=
  if len == 4 && frame == teardownFrame then
    { crcOk := false, teardown := true, isAck := false, isNak := false, info := ⟨0, 0, 0⟩ }
  else
    { crcOk := crc8 frame == 0
      teardown := false
      isAck := payloadOf hasSeq frame == Kind.text .ack
      isNak := payloadOf hasSeq frame == Kind.text .nak
      info :=
        ⟨if hasSeq then frame.headD 0 else 0, BitVec.ofNat 8 hasSeq.toNat,
          len - 1 - BitVec.ofNat 8 hasSeq.toNat⟩ }

/-- Writes the results of a CHECK, all together, and sets `RX_VALID` (10_state.md R33, R34, R38). -/
def State.putResult (s : State) (r : CheckResult) : State :=
  { s with
    status :=
      { s.status with
        crcOk := r.crcOk, teardown := r.teardown, isAck := r.isAck, isNak := r.isNak
        rxValid := true }
    rxinfo := r.info }

/-- Clears `RX_VALID` (10_state.md R33). -/
def State.staleRx (s : State) : State :=
  { s with status := { s.status with rxValid := false } }

end Sys2Proof.Machine
end

