-- ==== Sys2Proof/Machine/Control.lean ====
section
/-! DEFINITION. The control commands (43_control.md R180 to R184) and the timer's tick (60_exceptions.md R220). -/

namespace Sys2Proof.Machine

/-- A tick in this state expires the timer (60_exceptions.md R220). -/
def State.expiring (s : State) : Bool :=
  s.status.armed && decide (s.tcnt.toNat ≤ 1)

/-- The retry counter saturates at `0xFFFF` (60_exceptions.md R222). -/
def Retry.bump (r : Retry) : Retry :=
  { r with cnt := if r.cnt = 0xFFFF then 0xFFFF else r.cnt + 1 }

/-- `timer_tick` (60_exceptions.md R220, R221). -/
def State.timerTick (s : State) : State :=
  if s.status.armed then
    if s.tcnt.toNat ≤ 1 then
      { s with
        tcnt := 0
        status := { s.status with armed := false, timeout := true }
        retry := s.retry.bump }
    else { s with tcnt := s.tcnt - 1 }
  else s

/-- NOP has no effect beyond the common flags (43_control.md R180). -/
def nopEffect (s : State) : State :=
  s

/-- NOP (43_control.md R180). -/
def execNop (s : State) : Result :=
  s.runCommand .nop nopEffect

/-- `TCNT <- TLOAD`, `ARMED <- 1` (43_control.md R181). -/
def tmrArmEffect (s : State) : State :=
  { s with tcnt := s.tload, status := { s.status with armed := true } }

/-- TMR_ARM (43_control.md R181). -/
def execTmrArm (s : State) : Result :=
  s.runCommand .tmrArm tmrArmEffect

/-- `ARMED <- 0` (43_control.md R182). -/
def tmrDisarmEffect (s : State) : State :=
  { s with status := { s.status with armed := false } }

/-- TMR_DISARM (43_control.md R182). -/
def execTmrDisarm (s : State) : Result :=
  s.runCommand .tmrDisarm tmrDisarmEffect

/-- `RETRY.CNT <- 0` (43_control.md R183). -/
def retryClrEffect (s : State) : State :=
  { s with retry := { s.retry with cnt := 0 } }

/-- RETRY_CLR (43_control.md R183). -/
def execRetryClr (s : State) : Result :=
  s.runCommand .retryClr retryClrEffect

/-- A reserved opcode has no completion (43_control.md R184): it is never accepted, so it is never pending. -/
def reservedEffect (s : State) : State :=
  s

/-- Reserved opcode `0xE`: always rejected with RSVD_OP (43_control.md R184). -/
def execReservedE (rest : BitVec 28) (s : State) : Result :=
  s.runCommand (.reservedE rest) reservedEffect

/-- Reserved opcode `0xF`: always rejected with RSVD_OP (43_control.md R184). -/
def execReservedF (rest : BitVec 28) (s : State) : Result :=
  s.runCommand (.reservedF rest) reservedEffect

end Sys2Proof.Machine
end

