-- ==== Sys2Proof/Machine/Bus.lean ====
section
/-! DEFINITION. The bus interface (20_memory.md R60 to R78): the register map, the checks of a request, the response, and
the effect of every accepted write but a `CMD` write. -/

namespace Sys2Proof.Machine

/-- What an offset of the window names (20_memory.md R61). -/
inductive Target where
  | id
  | ctrl
  | cmd
  | status
  | crc
  | txlen
  | rxlen
  | rxinfo
  | table
  | tload
  | tcnt
  | retry
  | err
  /-- Byte `j` of a buffer. -/
  | buf (b : Buf) (j : Nat)
  | unmapped
  deriving DecidableEq, Repr

/-- The register map (20_memory.md R61), for aligned offsets. -/
def Target.ofAddr (a : BitVec 8) : Target :=
  if a = 0x00 then .id
  else if a = 0x04 then .ctrl
  else if a = 0x08 then .cmd
  else if a = 0x0C then .status
  else if a = 0x10 then .crc
  else if a = 0x14 then .txlen
  else if a = 0x18 then .rxlen
  else if a = 0x1C then .rxinfo
  else if a = 0x20 then .table
  else if a = 0x24 then .tload
  else if a = 0x28 then .tcnt
  else if a = 0x2C then .retry
  else if a = 0x30 then .err
  else if 0x40 ≤ a.toNat ∧ a.toNat < 0x60 then .buf .pld (a.toNat - 0x40)
  else if 0x60 ≤ a.toNat ∧ a.toNat < 0x80 then .buf .txf (a.toNat - 0x60)
  else if 0x80 ≤ a.toNat ∧ a.toNat < 0xA0 then .buf .rxf (a.toNat - 0x80)
  else .unmapped

/-- The read-only registers and the TXF window (20_memory.md R67). -/
def Target.readOnly : Target → Bool
  | .id => true
  | .crc => true
  | .txlen => true
  | .rxinfo => true
  | .tcnt => true
  | .buf .txf _ => true
  | _ => false

/-- The control registers, whose writes need all four strobes (20_memory.md R61, R63). -/
def Target.control : Target → Bool
  | .buf _ _ => false
  | .unmapped => false
  | _ => true

/-- The busy-gated targets (70_reset_and_hazards.md R255). -/
def Target.gated : Target → Bool
  | .cmd => true
  | .rxlen => true
  | .tload => true
  | .buf .pld _ => true
  | .buf .rxf _ => true
  | _ => false

/-- The request's target. -/
def Request.target (q : Request) : Target :=
  Target.ofAddr q.addr

/-- BUSERR: the checks of 20_memory.md R68, steps 1 to 4 (alignment R62, unmapped R66, read-only R67, strobes R63). -/
def Request.busErr (q : Request) : Bool :=
  if q.addr.extractLsb' 0 2 ≠ 0 then true
  else if q.target = .unmapped then true
  else if !q.write then false
  else if q.target.readOnly then true
  else q.target.control && q.wstrb != 0xF

/-- `readword(s, a)` (20_memory.md R78): reserved bits read 0 (R69), buffers are packed little-endian (R65). -/
def State.readWord (s : State) : Target → Word
  | .id => Config.idValue
  | .ctrl => s.ctrl.toWord
  | .cmd => 0
  | .status => s.statusWord
  | .crc => s.crcRem.setWidth 32
  | .txlen => s.txlen.setWidth 32
  | .rxlen => s.rxlen.setWidth 32
  | .rxinfo => 0#8 ++ s.rxinfo.plen ++ s.rxinfo.poff ++ s.rxinfo.seq
  | .table => 0#16 ++ crcTable s.tableIdx ++ s.tableIdx
  | .tload => s.tload
  | .tcnt => s.tcnt
  | .retry => s.retry.limit ++ s.retry.cnt
  | .err => 0#24 ++ s.err.op ++ s.err.cause
  | .buf b j => s.buf b (j + 3) ++ s.buf b (j + 2) ++ s.buf b (j + 1) ++ s.buf b j
  | .unmapped => 0

/-- `respond(s, q)` (20_memory.md R78), on the state at the start of the cycle (00_scope.md R19). -/
def State.respond (s : State) : Option Request → Response
  | none => ⟨0, false⟩
  | some q =>
    if q.busErr then ⟨0, true⟩
    else if q.write then ⟨0, false⟩
    else ⟨s.readWord q.target, false⟩

/-- The effect of an accepted write to a target other than `CMD` (20_memory.md R70; the register rules of
10_state.md). `completes` and `expires` are the cycle's other events, for the W1C rule (70_reset_and_hazards.md R254). -/
def State.writeTarget (s : State) (completes expires : Bool) (t : Target) (wdata : Word) (wstrb : BitVec 4) :
    State :=
  match t with
  | .ctrl => { s with ctrl := Ctrl.ofWord wdata }
  | .status => { s with status := s.status.clearWritten wdata completes expires }
  | .rxlen => { s.staleRx with rxlen := wdata.extractLsb' 0 8 }
  | .table => { s with tableIdx := wdata.extractLsb' 0 8 }
  | .tload => { s with tload := wdata }
  | .retry => { s with retry := { s.retry with limit := wdata.extractLsb' 16 16 } }
  | .err => { s with err := ⟨0, 0⟩ }
  | .buf .pld j => { s with mem := s.mem.setLanes .pld j wdata wstrb }
  | .buf .rxf j => { s.staleRx with mem := s.mem.setLanes .rxf j wdata wstrb }
  | .buf .txf _ => s
  | .id => s
  | .cmd => s
  | .crc => s
  | .txlen => s
  | .rxinfo => s
  | .tcnt => s
  | .unmapped => s

/-- The OVERRUN a busy-gated write raises (60_exceptions.md R204): cause 7 with the word's `OP` for `CMD`, cause 8 with
0 for the others. -/
def State.overrun (s : State) (t : Target) (wdata : Word) : State :=
  if t = .cmd then s.raiseOverrun .ovrCmd (Word.opField wdata) else s.raiseOverrun .ovrWrite 0

end Sys2Proof.Machine
end

