-- ==== Sys2Proof/Machine/Checker.lean ====
section
/-! DEFINITION. The checker and the test hooks: CHECK, INJECT, LOOPBACK (42_check_and_test.md R160 to R167). -/

namespace Sys2Proof.Machine

/-- The results of decoding `RXF[0..RXLEN-1]` (42_check_and_test.md R160). -/
def checkEffect (hasSeq : Bool) (s : State) : State :=
  s.putResult (checkFrame hasSeq s.rxlen s.rxFrame)

/-- CHECK (42_check_and_test.md R160). -/
def execCheck (hasSeq : Bool) (s : State) : Result :=
  s.runCommand (.check hasSeq) (checkEffect hasSeq)

/-- `TXF[TXLEN-2] <- TXF[TXLEN-2] ^ 0x02` (42_check_and_test.md R166). -/
def injectEffect (s : State) : State :=
  { s with
    mem := s.mem.setBuf .txf (s.txlen.toNat - 2) (s.buf .txf (s.txlen.toNat - 2) ^^^ Config.injMask) }

/-- INJECT (42_check_and_test.md R166). -/
def execInject (s : State) : Result :=
  s.runCommand .inject injectEffect

/-- `RXF[0..TXLEN-1] <- TXF[0..TXLEN-1]`, `RXLEN <- TXLEN`, `RX_VALID <- 0` (42_check_and_test.md R167). -/
def loopbackEffect (s : State) : State :=
  { (s.putBytes .rxf s.txFrame).staleRx with rxlen := s.txlen }

/-- LOOPBACK (42_check_and_test.md R167). -/
def execLoopback (s : State) : Result :=
  s.runCommand .loopback loopbackEffect

end Sys2Proof.Machine
end

