-- ==== Sys2Proof/Machine/CrcUnit.lean ====
section
/-! DEFINITION. The CRC8 unit's commands: CRC_CLR, CRC_BYTE, CRC_PLD (40_crc.md R125, R126, R127). -/

namespace Sys2Proof.Machine

/-- Sets the running remainder (10_state.md R35). -/
def State.setRem (s : State) (r : Byte) : State :=
  { s with crcRem := r }

/-- `CRC.REM <- 0x00` (40_crc.md R125). -/
def crcClrEffect (s : State) : State :=
  s.setRem Config.crcInit

/-- CRC_CLR (40_crc.md R125). -/
def execCrcClr (s : State) : Result :=
  s.runCommand .crcClr crcClrEffect

/-- `CRC.REM <- T[DATA ^ CRC.REM]` (40_crc.md R126). -/
def crcByteEffect (data : Byte) (s : State) : State :=
  s.setRem (crcTable (data ^^^ s.crcRem))

/-- CRC_BYTE (40_crc.md R126). -/
def execCrcByte (data : Byte) (s : State) : Result :=
  s.runCommand (.crcByte data) (crcByteEffect data)

/-- `CRC.REM <- fold(CRC.REM, PLD[0..n-1])` (40_crc.md R127). -/
def crcPldEffect (len : Byte) (s : State) : State :=
  s.setRem (crcFold s.crcRem (s.bytes .pld len.toNat))

/-- CRC_PLD (40_crc.md R127). -/
def execCrcPld (len : Byte) (s : State) : Result :=
  s.runCommand (.crcPld len) (crcPldEffect len)

end Sys2Proof.Machine
end

