-- ==== Sys2Proof/Machine/Framer.lean ====
section
/-! DEFINITION. The framer's commands: FRAME_DATA, FRAME_ACK, FRAME_SWTAG, FRAME_TEARDOWN (41_framing.md R140 to R147).
Each builds its frame in `TXF` and sets `TXLEN`; nothing else changes but the common flags (R147). -/

namespace Sys2Proof.Machine

/-- The frame of FRAME_DATA from `PLD[0..n-1]` (41_framing.md R140). -/
def frameDataEffect (hasSeq : Bool) (seq len : Byte) (s : State) : State :=
  s.putFrame (dataFrame hasSeq seq (s.bytes .pld len.toNat))

/-- FRAME_DATA (41_framing.md R140). -/
def execFrameData (hasSeq : Bool) (seq len : Byte) (s : State) : Result :=
  s.runCommand (.frameData hasSeq seq len) (frameDataEffect hasSeq seq len)

/-- The frame of FRAME_ACK and FRAME_NAK (41_framing.md R142). -/
def frameAckEffect (kind : Kind) (seq : Byte) (s : State) : State :=
  s.putFrame (ackFrame kind seq)

/-- FRAME_ACK (41_framing.md R142). -/
def execFrameAck (kind : Kind) (seq : Byte) (s : State) : Result :=
  s.runCommand (.frameAck kind seq) (frameAckEffect kind seq)

/-- The tag frame of FRAME_SWTAG (41_framing.md R144, R145). -/
def frameSwtagEffect (kind : Kind) (hasSeq : Bool) (seq : Byte) (s : State) : State :=
  s.putFrame (tagFrame kind hasSeq seq)

/-- FRAME_SWTAG (41_framing.md R144). -/
def execFrameSwtag (kind : Kind) (hasSeq : Bool) (seq : Byte) (s : State) : Result :=
  s.runCommand (.frameSwtag kind hasSeq seq) (frameSwtagEffect kind hasSeq seq)

/-- The teardown frame (41_framing.md R146). -/
def frameTeardownEffect (s : State) : State :=
  s.putFrame teardownFrame

/-- FRAME_TEARDOWN (41_framing.md R146). -/
def execFrameTeardown (s : State) : Result :=
  s.runCommand .frameTeardown frameTeardownEffect

end Sys2Proof.Machine
end

