-- ==== Sys2Proof/Machine/Dispatch.lean ====
section
/-! DEFINITION. The meaning of every command of spec/opcode_table.json, one arm each. -/

namespace Sys2Proof.Machine

def exec (i : Instr) (s : State) : Host.Outcome State Fault Refusal :=
  match i with
  | .nop => Sys2Proof.Machine.execNop s
  | .crcClr => Sys2Proof.Machine.execCrcClr s
  | .crcByte data => Sys2Proof.Machine.execCrcByte data s
  | .crcPld len => Sys2Proof.Machine.execCrcPld len s
  | .frameData hasSeq seq len => Sys2Proof.Machine.execFrameData hasSeq seq len s
  | .frameAck kind seq => Sys2Proof.Machine.execFrameAck kind seq s
  | .frameSwtag kind hasSeq seq => Sys2Proof.Machine.execFrameSwtag kind hasSeq seq s
  | .frameTeardown => Sys2Proof.Machine.execFrameTeardown s
  | .check hasSeq => Sys2Proof.Machine.execCheck hasSeq s
  | .inject => Sys2Proof.Machine.execInject s
  | .loopback => Sys2Proof.Machine.execLoopback s
  | .tmrArm => Sys2Proof.Machine.execTmrArm s
  | .tmrDisarm => Sys2Proof.Machine.execTmrDisarm s
  | .retryClr => Sys2Proof.Machine.execRetryClr s
  | .reservedE rest => Sys2Proof.Machine.execReservedE rest s
  | .reservedF rest => Sys2Proof.Machine.execReservedF rest s

end Sys2Proof.Machine
end

