-- ==== Sys2Proof/Machine/Cycle.lean ====
section
/-! DEFINITION. One clock cycle (70_reset_and_hazards.md R253): the tick, then the pending command, then the bus request,
and the outputs computed from the state at the start of the cycle. -/

namespace Sys2Proof.Machine

/-- A word presented to acceptance while nothing is pending (70_reset_and_hazards.md R250): a nonzero reserved field is
rejected at once with RSVD_FIELD (30_encoding.md R94), any other word is its command's matter. -/
def presentWord (w : Word) (s : State) : Result :=
  match decode w with
  | .ok i => exec i s
  | .error (.reservedField op) => .next (s.raiseIllegal .rsvdField op)

/-- The pending command completes in this cycle (70_reset_and_hazards.md R251). A count of 0 is no value of `PEND`
(10_state.md R49) and is taken as 1 (log 7). -/
def State.completes (s : State) : Bool :=
  match s.pend with
  | none => false
  | some p => decide (p.remaining ≤ 1)

/-- A pending word in its completion cycle. A word that is no command is never accepted; were it pending, it would
complete without effects (log 7). -/
def completeWord (w : Word) (s : State) : Result :=
  match decode w with
  | .ok i => exec i s
  | .error _ => .next s.finish

/-- `advance` (70_reset_and_hazards.md R251). -/
def advance (s : State) : Result :=
  match s.pend with
  | none => .next s
  | some p => if p.remaining ≤ 1 then completeWord p.word s else .next (s.countDown p)

/-- The effect of a write that passed the bus checks, on the state `s` after the tick and the completion; `s0` is the
state at the start of the cycle, whose `BUSY` gates the write (70_reset_and_hazards.md R253, R255). A buffer write
without a strobe is no write (20_memory.md R64). -/
def writeEffect (s0 : State) (tick : Bool) (q : Request) (s : State) : Result :=
  if q.wstrb = 0 then .next s
  else if q.target.gated && s0.busy then .next (s.overrun q.target q.wdata)
  else if q.target = .cmd then presentWord q.wdata s
  else .next (s.writeTarget s0.completes (tick && s0.expiring) q.target q.wdata q.wstrb)

/-- The effect of the cycle's request: none without a request, for a read (20_memory.md R70) or for a bus error (R68). -/
def requestEffect (s0 : State) (tick : Bool) (req : Option Request) (s : State) : Result :=
  match req with
  | none => .next s
  | some q => if q.write && !q.busErr then writeEffect s0 tick q s else .next s

/-- The outputs of a cycle, computed from the state at its start (00_scope.md R19, 60_exceptions.md R210). In a reset
cycle the response is 0 without error (70_reset_and_hazards.md R240). -/
def State.outputs (s : State) (x : Inputs) : Outputs :=
  ⟨if x.rst then ⟨0, false⟩ else s.respond x.req, s.irq⟩

/-- The tick, if there is one (60_exceptions.md R220). -/
def State.afterTick (s : State) (tick : Bool) : State :=
  if tick then s.timerTick else s

/-- One cycle with the inputs `x` (70_reset_and_hazards.md R253, R254). The request's part is computed from the state
before the cycle where the order matters: its gate and the events of R254 (log 6). -/
def cycleWith (x : Inputs) (s : State) : Result :=
  if x.rst then .next { s.resetCycle with out := s.outputs x }
  else
    andThen (advance (s.afterTick x.tick)) fun s2 =>
      andThen (requestEffect s x.tick x.req s2) fun s3 =>
        .next { s3 with out := s.outputs x }

/-- The inputs of the coming cycle: the head of the list, or free inputs where the list has ended (log 1, log 2). -/
def State.nextInputs (s : State) : Inputs :=
  s.inputs.headD (Config.freeInput s.cycle)

/-- The state with the coming cycle's inputs taken off the list. -/
def State.takeInputs (s : State) : State :=
  { s with inputs := s.inputs.tail, cycle := s.cycle + 1 }

/-- A cycle that writes the word `w` to `CMD` with all four strobes, without tick or reset (30_encoding.md R90, R100). -/
def cmdWrite (w : Word) : Inputs :=
  { rst := false, tick := false
    req := some { write := true, addr := 0x08, wdata := w, wstrb := 0xF } }

/-- The state in which the very next cycle presents the word `w` to acceptance: nothing is pending, and the next inputs
are the `CMD` write (log 9). -/
def State.withCommand (s : State) (w : Word) : State :=
  { s with pend := none, inputs := cmdWrite w :: s.inputs }

end Sys2Proof.Machine
end

