-- ==== Sys2Proof/Machine/Step.lean ====
section
/-! DEFINITION. One step is one rising clock edge (00_scope.md R6). -/

namespace Sys2Proof.Machine

/-- One cycle with the coming cycle's inputs. -/
def step (s : State) : Host.Outcome State Fault Refusal :=
  cycleWith s.nextInputs s.takeInputs

/-- The state whose next step runs the command word made of the low `nbits` bits of `w` (log 9). -/
def State.withFetchWord (s : State) (nbits w : Nat) : State :=
  s.withCommand (BitVec.ofNat 32 (w % 2 ^ nbits))

end Sys2Proof.Machine
end

