-- ==== Sys2Proof/Safety.lean ====
section
/-! DEFINITION. What counts as a good state of CRC8F, in the terms the claims use. -/

namespace Sys2Proof.Machine

/-- A pending command is one that acceptance let through (70_reset_and_hazards.md R250): its count is in
`1..LAT_MAX` (10_state.md R49), its word is a command, and its operands still pass the acceptance checks, because
every operand is busy-gated or written only by commands (R251). -/
structure State.PendingLegal (s : State) (p : Pending) : Prop where
  waits : 1 ≤ p.remaining ∧ p.remaining ≤ 32
  legal : ∃ i, decode p.word = .ok i ∧ s.firstCause i = none

/-- The decode results of a CHECK as the state holds them (10_state.md R34, R38). -/
def State.results (s : State) : CheckResult :=
  { crcOk := s.status.crcOk, teardown := s.status.teardown, isAck := s.status.isAck,
    isNak := s.status.isNak, info := s.rxinfo }

/-- The invariant of CRC8F. -/
structure State.Inv (s : State) : Prop where
  /-- The buffers' list is in canonical form (20_memory.md R61). -/
  memory : s.mem.wf
  /-- `TXLEN` is 0 or 2..32 (10_state.md R36, 41_framing.md R147). -/
  txlen : s.txlen = 0 ∨ (2 ≤ s.txlen.toNat ∧ s.txlen.toNat ≤ 32)
  /-- Every byte of the frame in `TXF` was written by a command (10_state.md R46). -/
  frameWritten : ∀ i, i < s.txlen.toNat → (s.mem.read (0x60 + i)).isSome = true
  /-- `ERR.CAUSE` is 0..8 (60_exceptions.md R201). -/
  cause : s.err.cause.toNat ≤ 8
  /-- `ERR.OP` is 0 for no error and for OVR_WRITE (10_state.md R43). -/
  causeOp : s.err.cause = 0 ∨ s.err.cause = 8 → s.err.op = 0
  /-- An armed timer has ticks left (60_exceptions.md R220, 43_control.md R181). -/
  armed : s.status.armed = true → s.tcnt ≠ 0
  /-- `DONE` and `BUSY` are never both 1 (10_state.md R27). -/
  notDone : s.busy = true → s.status.done = false
  /-- The pending command, if any, is legal. -/
  pending : ∀ p, s.pend = some p → s.PendingLegal p
  /-- `IS_ACK` and `IS_NAK` are never both 1 (42_check_and_test.md R160). -/
  oneText : ¬ (s.status.isAck = true ∧ s.status.isNak = true)
  /-- On a teardown match the other results are 0 (42_check_and_test.md R161). -/
  teardown : s.status.teardown = true →
    s.status.crcOk = false ∧ s.status.isAck = false ∧ s.status.isNak = false ∧ s.rxinfo = ⟨0, 0, 0⟩

/-- `RX_VALID` tells the truth (10_state.md R33): while it is 1, the results are those of the frame now in `RXF`, for
one of the two formats. -/
def State.RxCurrent (s : State) : Prop :=
  s.status.rxValid = true → ∃ hasSeq, s.results = checkFrame hasSeq s.rxlen s.rxFrame

end Sys2Proof.Machine
end

