-- ==== Sys2Proof/Certificates/Slice0/Obligations.lean ====
section
/-! DEFINITION. The statements about CRC8F for the provers. Each is written from the rules it cites; the names under
`Sys2Proof.Claims` are the rules' own vocabulary (what rejection, acceptance and completion leave, 60_exceptions.md
R203, R204; 70_reset_and_hazards.md R250, R251), spelled out field by field. -/

namespace Sys2Proof.Claims

open Sys2Proof.Machine

/-- `REG[hi:lo]` of a word (00_scope.md R10), as a number. -/
def field (w : Word) (lo len : Nat) : Nat :=
  (w.extractLsb' lo len).toNat

/-- The state R203 leaves: `ERR_ILL` and `DONE` set, `ERR` captured if it was clear. -/
def rejected (s : State) (cause op : BitVec 4) : State :=
  { s with
    status := { s.status with errIll := true, done := true }
    err := if s.err.cause = 0 then ⟨cause, op⟩ else s.err }

/-- The state R204 leaves: `ERR_OVR` set, `ERR` captured if it was clear. -/
def overrun (s : State) (cause op : BitVec 4) : State :=
  { s with
    status := { s.status with errOvr := true }
    err := if s.err.cause = 0 then ⟨cause, op⟩ else s.err }

/-- `LAT` of a command word in a state: the OPEN parameter of R262, free (what it may depend on is log 3). -/
def lat (s : State) (w : Word) : Nat :=
  (Config.latency w s.rxlen s.txlen).val + 1

/-- The state R250 leaves when it accepts the word. -/
def accepted (s : State) (w : Word) : State :=
  { s with
    pend := some ⟨w, lat s w⟩
    status := { s.status with done := false } }

/-- The common effects of a completion (R251): `PEND <- None` (so `BUSY` reads 0) and `DONE <- 1`. -/
def completed (s : State) : State :=
  { s with
    pend := none
    status := { s.status with done := true } }

/-- Every word with this `OP` and a nonzero reserved bit is rejected with RSVD_FIELD (code 2). -/
def RejectsReserved (op : BitVec 4) (bad : Word → Prop) : Prop :=
  ∀ (s : State) (w : Word), s.pend = none → w.extractLsb' 0 4 = op → bad w →
    presentWord w s = .next (rejected s 2 op)

/-- The command is accepted whenever nothing is pending (no operand check). -/
def AlwaysAccepted (i : Instr) : Prop :=
  ∀ s : State, s.pend = none → exec i s = .next (accepted s (encode i))

/-- The encoding of a command, both ways. -/
def EncodedAs (i : Instr) (w : Word) : Prop :=
  encode i = w ∧ decode w = .ok i

/-- `[PLD[0], …, PLD[n-1]]`, and the same of `TXF` and `RXF`. -/
def bufBytes (s : State) (b : Buf) (n : Nat) : List Byte :=
  (List.range n).map (s.buf b)

/-- "ACK" and "NAK". -/
def text : Kind → List Byte
  | .ack => [0x41, 0x43, 0x4B]
  | .nak => [0x4E, 0x41, 0x4B]

/-- What a framing command leaves (41_framing.md R147): `TXF[0..L-1]` is the frame, `TXLEN` is `L`, `BUSY` and `DONE`
are the common effects; every other register and every other byte of memory is as before. -/
def BuildsFrame (i : Instr) (s : State) (frame : List Byte) : Prop :=
  ∃ t : State, exec i s = .next t ∧
    t = completed { s with mem := t.mem, txlen := BitVec.ofNat 8 frame.length } ∧
    (∀ k, k < frame.length → t.buf .txf k = frame.getD k 0) ∧
    (∀ a, ¬ (0x60 ≤ a ∧ a < 0x60 + frame.length) → t.readByte a = s.readByte a)

/-- The cycle answers what the same cycle without its request answers, with the update `f` and the response `resp`. -/
def CycleAdds (s : State) (x : Inputs) (f : State → State) (resp : Response) : Prop :=
  ∃ u : State, cycleWith { x with req := none } s = .next u ∧
    cycleWith x s = .next { f u with out := ⟨resp, s.irq⟩ }

/-- BUSERR (20_memory.md R68): `resp_err = 1`, `resp_rdata = 0`, and no effect on any state. -/
def RaisesBuserr (s : State) (x : Inputs) : Prop :=
  CycleAdds s x id ⟨0, true⟩

/-- The request of a cycle that is no reset cycle. -/
def Requests (x : Inputs) (q : Request) : Prop :=
  x.rst = false ∧ x.req = some q

/-- A word write that passes the bus checks: aligned, and with all strobes on a control register. -/
def GoodWrite (q : Request) : Prop :=
  q.write = true ∧ q.addr.toNat % 4 = 0 ∧ (q.addr.toNat ≤ 0x30 → q.wstrb = 0xF)

/-- The command that completes in this cycle has one of these opcodes (70_reset_and_hazards.md R251). -/
def CompletesOneOf (s : State) (ops : List (BitVec 4)) : Prop :=
  ∃ p i, s.pend = some p ∧ p.remaining ≤ 1 ∧ decode p.word = .ok i ∧ i.opcode ∈ ops

/-- A cycle with no request, no tick and no reset (30_encoding.md R100, `IDLE 1`). -/
def idle : Inputs := ⟨false, false, none⟩

/-- A cycle with a tick and no request (30_encoding.md R100, `TICK 1`). -/
def tickOnly : Inputs := ⟨false, true, none⟩

/-- `k` steps of the machine end in the state `t`. -/
def RunsTo (k : Nat) (s t : State) : Prop :=
  Host.Core.run Sys2Proof.core k s = .next t

/-- The first cause of a command word, from its fields and the state (60_exceptions.md R202; 30_encoding.md R92, R94,
R95, R96); 0 if it is legal. -/
def causeOf (s : State) (w : Word) : BitVec 4 :=
  let op := field w 0 4
  let hasSeq := field w 4 1
  let swSeq := field w 5 1
  let seq := field w 8 8
  let len := field w 16 8
  let rsvdField : Prop :=
    (op ∈ [0x0, 0x1, 0x7, 0x9, 0xA, 0xB, 0xC, 0xD] ∧ field w 4 28 ≠ 0) ∨
    (op = 0x2 ∧ field w 4 20 ≠ 0) ∨
    (op = 0x3 ∧ (field w 4 12 ≠ 0 ∨ field w 24 8 ≠ 0)) ∨
    (op = 0x4 ∧ (field w 5 3 ≠ 0 ∨ field w 24 8 ≠ 0 ∨ (hasSeq = 0 ∧ seq ≠ 0))) ∨
    (op = 0x5 ∧ (field w 5 3 ≠ 0 ∨ field w 16 16 ≠ 0)) ∨
    (op = 0x6 ∧ (field w 6 2 ≠ 0 ∨ field w 16 16 ≠ 0 ∨ (swSeq = 0 ∧ seq ≠ 0))) ∨
    (op = 0x8 ∧ (field w 5 27 ≠ 0))
  let lenRange : Prop :=
    (op = 0x3 ∧ ¬ len ≤ 32) ∨
    (op = 0x4 ∧ ¬ (1 ≤ len ∧ len + hasSeq ≤ 31)) ∨
    (op = 0x8 ∧ ¬ (1 + hasSeq ≤ s.rxlen.toNat ∧ s.rxlen.toNat ≤ 32)) ∨
    (op = 0x9 ∧ ¬ 2 ≤ s.txlen.toNat) ∨
    (op = 0xA ∧ ¬ 2 ≤ s.txlen.toNat)
  if op = 0xE ∨ op = 0xF then 1
  else if rsvdField then 2
  else if op = 0x6 ∧ swSeq = 1 ∧ 1 < seq then 4
  else if lenRange then 3
  else if op = 0x9 ∧ s.txlen = 4 ∧ bufBytes s .txf 4 = [0x00, 0x30, 0x30, 0x90] then 5
  else if op = 0xB ∧ s.tload = 0 then 6
  else 0

end Sys2Proof.Claims

open Sys2Proof Sys2Proof.Machine Sys2Proof.Claims

/-! ### Encoding -/

/-- Decoding the word of a command gives the command, for every command and every operand value (30_encoding.md
sections 1 and 2). -/
def Obligations.DecodeInvertsEncode : Prop :=
  ∀ i : Instr, decode (encode i) = .ok i

/-- A word that decodes is the word of the command it decodes to: no bit of it is dropped. -/
def Obligations.EncodeInvertsDecode : Prop :=
  ∀ (w : Word) (i : Instr), decode w = .ok i → encode i = w

/-- `encode` of R98 places the five fields, and the field reads of R98 take them out again. -/
def Obligations.AssembledFieldsReadBack : Prop :=
  ∀ (op sub : BitVec 4) (seq len data : Byte),
    assemble op sub seq len data =
      (data.setWidth 32 <<< 24) ||| (len.setWidth 32 <<< 16) ||| (seq.setWidth 32 <<< 8) |||
        (sub.setWidth 32 <<< 4) ||| op.setWidth 32 ∧
    field (assemble op sub seq len data) 0 4 = op.toNat ∧
    field (assemble op sub seq len data) 4 4 = sub.toNat ∧
    Word.seqField (assemble op sub seq len data) = seq ∧
    Word.lenField (assemble op sub seq len data) = len ∧
    Word.dataField (assemble op sub seq len data) = data

/-- Words written out in 95_test_vectors.md section 2.1 decode to the commands that section names. -/
def Obligations.ListedWordsDecode : Prop :=
  decode 0x41000002 = .ok (.crcByte 0x41) ∧ decode 0x00200003 = .ok (.crcPld 32) ∧
  decode 0x001E0114 = .ok (.frameData true 1 30) ∧ decode 0x00000215 = .ok (.frameAck .nak 2) ∧
  decode 0x00000126 = .ok (.frameSwtag .ack true 1) ∧ decode 0x00000018 = .ok (.check true) ∧
  decode 0x0000000B = .ok .tmrArm

/-! ### The step -/

/-- One step is one cycle with the next inputs of the list. The list is the model's choice (log 1). -/
def Obligations.StepIsOneCycle : Prop :=
  ∀ (s : State) (x : Inputs) (xs : List Inputs), s.inputs = x :: xs →
    step s = cycleWith x { s with inputs := xs, cycle := s.cycle + 1 }

/-- A step whose request writes a word to `CMD` while nothing is pending runs the command the word decodes to: it is
presented to acceptance in the state after the cycle's tick. That `exec` stands for both phases of a command is the
model's choice (log 5), and so is the list of inputs (log 1). -/
def Obligations.StepRunsWrittenCommand : Prop :=
  ∀ (s : State) (w : Word) (i : Instr) (x : Inputs) (xs : List Inputs),
    s.inputs = x :: xs → Requests x ⟨true, 0x08, w, 0xF⟩ → s.pend = none → decode w = .ok i →
    step s =
      andThen (exec i (({ s with inputs := xs, cycle := s.cycle + 1 } : State).afterTick x.tick)) fun t =>
        .next { t with out := ⟨⟨0, false⟩, s.irq⟩ }

/-- A step whose pending command is due runs that command in the state after the cycle's tick, and then the cycle's
request (the model's choices of logs 1 and 5, as above). -/
def Obligations.StepRunsPendingCommand : Prop :=
  ∀ (s : State) (p : Pending) (i : Instr) (x : Inputs) (xs : List Inputs),
    s.inputs = x :: xs → x.rst = false → s.pend = some p → p.remaining = 1 → decode p.word = .ok i →
    let s0 : State := { s with inputs := xs, cycle := s.cycle + 1 }
    step s =
      andThen (exec i (s0.afterTick x.tick)) fun s2 =>
        andThen (requestEffect s0 x.tick x.req s2) fun s3 =>
          .next { s3 with out := ⟨s.respond x.req, s.irq⟩ }

/-- The word the host stores for a step is the command the step runs. CRC8F fetches nothing: that the store is a `CMD`
write put in front of the inputs, with nothing pending, is the model's choice (logs 5, 9). -/
def Obligations.FetchWordRunsNext : Prop :=
  ∀ (s : State) (w : Nat) (i : Instr), decodeTableWord 32 w = some i →
    step (s.withFetchWord 32 w) =
      andThen (exec i { s with pend := none, cycle := s.cycle + 1 }) fun t =>
        .next { t with out := ⟨⟨0, false⟩, s.irq⟩ }

/-- No step ends in a fault or a refusal (60_exceptions.md section 1: CRC8F never traps, halts or locks up). -/
def Obligations.EveryStepAnswersNext : Prop :=
  ∀ s : State, ∃ t : State, step s = .next t

/-! ### The CRC8 function -/

/-- The table entry is eight rounds of "test the top bit, shift, XOR 0x07", and the samples of R120's table. -/
def Obligations.TableIsEightShifts : Prop :=
  (∀ d : Byte, crcTable d =
    (List.range 8).foldl (fun (r : Byte) _ => if r.msb then (r <<< 1) ^^^ 0x07 else r <<< 1) d) ∧
  [0x00, 0x01, 0x41, 0x7F, 0x80, 0xFF].map crcTable = [0x00, 0x07, 0xC0, 0x7A, 0x89, 0xF3]

/-- Appending the CRC8 of a message and folding again gives 0. -/
def Obligations.AppendedCrcFoldsToZero : Prop :=
  ∀ m : List Byte, crc8 (m ++ [crc8 m]) = 0

/-- The table is linear and a bijection; folds of equal length are linear; a single nonzero byte never folds to 0; so
changing one byte of a frame that folds to 0 makes it fold to a nonzero value, which CHECK reports, while two changed
bytes can cancel. -/
def Obligations.SingleByteErrorsDetected : Prop :=
  (∀ a b : Byte, crcTable (a ^^^ b) = crcTable a ^^^ crcTable b) ∧
  Function.Bijective crcTable ∧
  (∀ a e : List Byte, a.length = e.length →
    crcFold 0 (List.zipWith (· ^^^ ·) a e) = crcFold 0 a ^^^ crcFold 0 e) ∧
  (∀ (j k : Nat) (b : Byte), b ≠ 0 →
    crcFold 0 (List.replicate j 0 ++ b :: List.replicate k 0) ≠ 0) ∧
  (∀ (front back : List Byte) (b mask : Byte), crc8 (front ++ b :: back) = 0 → mask ≠ 0 →
    crc8 (front ++ (b ^^^ mask) :: back) ≠ 0) ∧
  (∀ (hasSeq : Bool) (len : Byte) (front back : List Byte) (b : Byte), crc8 (front ++ b :: back) = 0 →
    (checkFrame hasSeq len (front ++ (b ^^^ 0x02) :: back)).crcOk = false) ∧
  (∃ a e : List Byte, a.length = e.length ∧ (∃ x ∈ e, x ≠ 0) ∧ crc8 a = 0 ∧
    crc8 (List.zipWith (· ^^^ ·) a e) = 0)

/-- A fold goes on where the one before it stopped, and a leading zero byte changes nothing. -/
def Obligations.FoldComposes : Prop :=
  (∀ (r : Byte) (s t : List Byte), crcFold r (s ++ t) = crcFold (crcFold r s) t) ∧
  crcTable 0 = 0 ∧ (∀ s : List Byte, crc8 ([0x00] ++ s) = crc8 s) ∧
  crc8 [0x00, 0x41, 0x43, 0x4B] = 0x7F ∧ crc8 [0x41, 0x43, 0x4B] = 0x7F ∧
  crc8 [0x00, 0x4E, 0x41, 0x4B] = 0x12 ∧ crc8 [0x4E, 0x41, 0x4B] = 0x12

/-- CRC8 is the remainder of the message times `X^8` modulo `X^8 + X^2 + X + 1` over GF(2), byte 0's bit 7 first
(40_crc.md section 1; the reading is marked there as general knowledge). -/
def Obligations.CrcIsPolynomialRemainder : Prop :=
  let bytePoly : Byte → Polynomial (ZMod 2) := fun b =>
    ∑ k ∈ Finset.range 8, if b.getLsbD k then Polynomial.X ^ k else 0
  ∀ m : List Byte,
    bytePoly (crc8 m) =
      (m.foldl (fun q b => q * Polynomial.X ^ 8 + bytePoly b) 0 * Polynomial.X ^ 8) %ₘ
        (Polynomial.X ^ 8 + Polynomial.X ^ 2 + Polynomial.X + 1)

/-! ### The CRC8 unit's commands -/

/-- R125 CRC_CLR. -/
def Obligations.CrcClrClearsRemainder : Prop :=
  EncodedAs .crcClr 0x00000001 ∧
  RejectsReserved 0x1 (fun w => field w 4 28 ≠ 0) ∧
  AlwaysAccepted .crcClr ∧
  (∀ (s : State) (p : Pending), s.pend = some p →
    exec .crcClr s = .next (completed { s with crcRem := 0x00 }))

/-- R126 CRC_BYTE. -/
def Obligations.CrcByteFoldsOneByte : Prop :=
  (∀ b : Byte, EncodedAs (.crcByte b) (b ++ 0x000002#24)) ∧
  RejectsReserved 0x2 (fun w => field w 4 20 ≠ 0) ∧
  (∀ b : Byte, AlwaysAccepted (.crcByte b)) ∧
  (∀ (s : State) (p : Pending) (b : Byte), s.pend = some p →
    exec (.crcByte b) s = .next (completed { s with crcRem := crcTable (b ^^^ s.crcRem) })) ∧
  (∀ r b : Byte, crcTable (b ^^^ r) = crcFold r [b]) ∧
  crcTable (0x00 ^^^ 0x00) = 0x00 ∧ (∀ b : Byte, crcTable (b ^^^ b) = 0x00) ∧
  crcTable (0x41 ^^^ 0x00) = 0xC0 ∧ crcTable (0x43 ^^^ 0xC0) = 0x80 ∧ crcTable (0x4B ^^^ 0x80) = 0x7F

/-- R127 CRC_PLD. A `PLD` byte not written since the reset is the unspecified `BUF_INIT` (free, log 4). -/
def Obligations.CrcPldFoldsPayload : Prop :=
  (∀ n : Byte, EncodedAs (.crcPld n) (0#8 ++ n ++ 0x0003#16)) ∧
  RejectsReserved 0x3 (fun w => field w 4 12 ≠ 0 ∨ field w 24 8 ≠ 0) ∧
  (∀ (s : State) (n : Byte), s.pend = none → 32 < n.toNat →
    exec (.crcPld n) s = .next (rejected s 3 0x3)) ∧
  (∀ (s : State) (n : Byte), s.pend = none → n.toNat ≤ 32 →
    exec (.crcPld n) s = .next (accepted s (encode (.crcPld n)))) ∧
  (∀ (s : State) (p : Pending) (n : Byte), s.pend = some p → n.toNat ≤ 32 →
    exec (.crcPld n) s =
      .next (completed { s with crcRem := crcFold s.crcRem (bufBytes s .pld n.toNat) })) ∧
  (∀ (s : State) (p : Pending), s.pend = some p → exec (.crcPld 0) s = .next (completed s)) ∧
  (∀ (s : State) (k : Nat), s.mem.read (0x40 + k) = none →
    s.buf .pld k = Config.bufInit s.bufHist (0x40 + k)) ∧
  crcFold 0x00 [0x48, 0x65, 0x6C, 0x6C, 0x6F] = 0xF6

/-! ### The framer's commands -/

/-- R140 FRAME_DATA. -/
def Obligations.FrameDataBuildsDataFrame : Prop :=
  (∀ (h : Bool) (q n : Byte),
    EncodedAs (.frameData h q n) (0#8 ++ n ++ q ++ 0#3 ++ BitVec.ofBool h ++ 0x4#4)) ∧
  RejectsReserved 0x4 (fun w =>
    field w 5 3 ≠ 0 ∨ field w 24 8 ≠ 0 ∨ (field w 4 1 = 0 ∧ field w 8 8 ≠ 0)) ∧
  (∀ (s : State) (h : Bool) (q n : Byte), s.pend = none → (h = true ∨ q = 0) →
    exec (.frameData h q n) s =
      .next (if n.toNat < 1 ∨ 31 - h.toNat < n.toNat then rejected s 3 0x4
        else accepted s (encode (.frameData h q n)))) ∧
  (∀ (s : State) (p : Pending) (h : Bool) (q n : Byte), s.pend = some p →
    1 ≤ n.toNat → n.toNat ≤ 31 - h.toNat →
    let body := (if h then [q] else []) ++ bufBytes s .pld n.toNat
    BuildsFrame (.frameData h q n) s (body ++ [crc8 body]) ∧
      (body ++ [crc8 body]).length = n.toNat + 1 + h.toNat ∧ crc8 (body ++ [crc8 body]) = 0) ∧
  (∀ body : List Byte, crc8 (0x00 :: body) = crc8 body) ∧
  (∀ (s : State) (k : Kind) (q : Byte) (t u : State), (∃ p, s.pend = some p) →
    bufBytes s .pld 3 = text k → exec (.frameData true q 3) s = .next t →
    exec (.frameAck k q) s = .next u → t = u) ∧
  crc8 [0x01, 0x78] = 0x7A

/-- R142 FRAME_ACK and FRAME_NAK, with the bytes of R143. -/
def Obligations.FrameAckBuildsGenuineAck : Prop :=
  (∀ q : Byte, EncodedAs (.frameAck .ack q) (0#16 ++ q ++ 0x05#8) ∧
    EncodedAs (.frameAck .nak q) (0#16 ++ q ++ 0x15#8)) ∧
  RejectsReserved 0x5 (fun w => field w 5 3 ≠ 0 ∨ field w 16 8 ≠ 0 ∨ field w 24 8 ≠ 0) ∧
  (∀ (k : Kind) (q : Byte), AlwaysAccepted (.frameAck k q)) ∧
  (∀ (s : State) (p : Pending) (k : Kind) (q : Byte), s.pend = some p →
    let body := q :: text k
    BuildsFrame (.frameAck k q) s (body ++ [crc8 body]) ∧ crc8 (body ++ [crc8 body]) = 0) ∧
  [0x00, 0x01, 0x02, 0x03, 0x07, 0xFF].map (fun q => crc8 (q :: text .ack)) =
    [0x7F, 0x69, 0x53, 0x45, 0x1D, 0xAE] ∧
  [0x00, 0x01, 0x02, 0x03, 0x07, 0xFF].map (fun q => crc8 (q :: text .nak)) =
    [0x12, 0x04, 0x3E, 0x28, 0x70, 0xC3]

/-- R144 FRAME_SWTAG with the six frames of R145, and which of them fold to 0. -/
def Obligations.FrameSwtagBuildsTagFrame : Prop :=
  (∀ (k : Kind) (h : Bool) (q : Byte), EncodedAs (.frameSwtag k h q)
    (0#16 ++ q ++ 0#2 ++ BitVec.ofBool h ++ BitVec.ofBool (k = .nak) ++ 0x6#4)) ∧
  RejectsReserved 0x6 (fun w => field w 6 2 ≠ 0 ∨ field w 16 8 ≠ 0 ∨ field w 24 8 ≠ 0 ∨
    (field w 5 1 = 0 ∧ field w 8 8 ≠ 0)) ∧
  (∀ (s : State) (k : Kind) (q : Byte), s.pend = none →
    exec (.frameSwtag k true q) s =
      .next (if 1 < q.toNat then rejected s 4 0x6 else accepted s (encode (.frameSwtag k true q)))) ∧
  (∀ k : Kind, AlwaysAccepted (.frameSwtag k false 0)) ∧
  (∀ (s : State) (p : Pending), s.pend = some p →
    BuildsFrame (.frameSwtag .ack false 0) s [0x41, 0x43, 0x4B, 0x7F] ∧
    BuildsFrame (.frameSwtag .nak false 0) s [0x4E, 0x41, 0x4B, 0x12] ∧
    BuildsFrame (.frameSwtag .ack true 0) s [0x00, 0x41, 0x43, 0x4B, 0x7F] ∧
    BuildsFrame (.frameSwtag .ack true 1) s [0x01, 0x41, 0x43, 0x4B, 0x69] ∧
    BuildsFrame (.frameSwtag .nak true 0) s [0x00, 0x4E, 0x41, 0x4B, 0x12] ∧
    BuildsFrame (.frameSwtag .nak true 1) s [0x01, 0x4E, 0x41, 0x4B, 0x12]) ∧
  crc8 [0x41, 0x43, 0x4B, 0x7F] = 0 ∧ crc8 [0x4E, 0x41, 0x4B, 0x12] = 0 ∧
  crc8 [0x00, 0x41, 0x43, 0x4B, 0x7F] = 0 ∧ crc8 [0x01, 0x41, 0x43, 0x4B, 0x69] = 0 ∧
  crc8 [0x00, 0x4E, 0x41, 0x4B, 0x12] = 0 ∧ crc8 [0x01, 0x4E, 0x41, 0x4B, 0x12] = 0x62 ∧
  crc8 [0x01, 0x4E, 0x41, 0x4B] = 0x04

/-- R146 FRAME_TEARDOWN. INJECT refuses its frame with INJ_TEARDOWN (code 5). -/
def Obligations.FrameTeardownBuildsSentinel : Prop :=
  EncodedAs .frameTeardown 0x00000007 ∧
  RejectsReserved 0x7 (fun w => field w 4 28 ≠ 0) ∧
  AlwaysAccepted .frameTeardown ∧
  (∀ (s : State) (p : Pending), s.pend = some p →
    BuildsFrame .frameTeardown s [0x00, 0x30, 0x30, 0x90]) ∧
  (∀ (s t : State) (p : Pending), s.pend = some p → exec .frameTeardown s = .next t →
    exec .inject t = .next (rejected t 5 0x9)) ∧
  crc8 [0x00, 0x30, 0x30, 0x90] = 0xE1 ∧ crc8 [0x00, 0x30] = 0x90 ∧ crc8 [0x00, 0x30, 0x30] = 0x69

/-- A rejected framing command changes neither `TXF` nor `TXLEN` (41_framing.md section 5): every word with a framing
opcode that acceptance does not let through, for a reserved field or for an operand, leaves `TXLEN` and every byte of
memory, written or not, as before; so does every decoded framing command whose operand check fails. -/
def Obligations.RejectedFramingKeepsFrame : Prop :=
  (∀ (s : State) (w : Word), w.extractLsb' 0 4 ∈ [0x4#4, 0x5#4, 0x6#4, 0x7#4] → s.pend = none →
    ∃ t : State, presentWord w s = .next t ∧
      t.txlen = s.txlen ∧ (∀ a, t.readByte a = s.readByte a) ∧
      (t.pend = none ↔ causeOf s w ≠ 0) ∧
      (causeOf s w ≠ 0 → t = rejected s (causeOf s w) (w.extractLsb' 0 4))) ∧
  (∀ (s : State) (i : Instr), i.opcode ∈ [0x4#4, 0x5#4, 0x6#4, 0x7#4] → s.pend = none →
    s.firstCause i ≠ none →
    ∃ t : State, exec i s = .next t ∧ t.txlen = s.txlen ∧ (∀ a, t.readByte a = s.readByte a) ∧
      t.pend = none ∧ t.status.errIll = true ∧ t.status.done = true)

/-! ### The checker and the test hooks -/

/-- R160 CHECK; the teardown sentinel first (R161). -/
def Obligations.CheckDecodesReceivedFrame : Prop :=
  EncodedAs (.check false) 0x00000008 ∧ EncodedAs (.check true) 0x00000018 ∧
  RejectsReserved 0x8 (fun w => field w 5 3 ≠ 0 ∨ field w 8 24 ≠ 0) ∧
  (∀ (s : State) (h : Bool), s.pend = none →
    exec (.check h) s =
      .next (if s.rxlen.toNat < 1 + h.toNat ∨ 32 < s.rxlen.toNat then rejected s 3 0x8
        else accepted s (encode (.check h)))) ∧
  (∀ (s : State) (p : Pending) (h : Bool), s.pend = some p →
    1 + h.toNat ≤ s.rxlen.toNat → s.rxlen.toNat ≤ 32 →
    let len := s.rxlen.toNat
    let f := bufBytes s .rxf len
    let payload := (f.take (len - 1)).drop h.toNat
    exec (.check h) s = .next (completed
      (if len = 4 ∧ f = [0x00, 0x30, 0x30, 0x90] then
        { s with
          status := { s.status with
            teardown := true, crcOk := false, isAck := false, isNak := false, rxValid := true }
          rxinfo := ⟨0, 0, 0⟩ }
      else
        { s with
          status := { s.status with
            teardown := false, crcOk := decide (crc8 f = 0)
            isAck := decide (payload = [0x41, 0x43, 0x4B])
            isNak := decide (payload = [0x4E, 0x41, 0x4B]), rxValid := true }
          rxinfo :=
            ⟨if h then s.buf .rxf 0 else 0, if h then 1 else 0,
              BitVec.ofNat 8 (len - 1 - h.toNat)⟩ }))) ∧
  (∀ b : Byte, crc8 [b] = 0 ↔ b = 0)

/-- The CHECK results that 95_test_vectors.md section 2.4 lists, on its frames: (CRC_OK, TEARDOWN, IS_ACK, IS_NAK) and
RXINFO. -/
def Obligations.CheckVectorsAgree : Prop :=
  checkFrame true 3 [0x01, 0x78, 0x7A] = ⟨true, false, false, false, ⟨1, 1, 1⟩⟩ ∧
  checkFrame true 3 [0x01, 0x7A, 0x7A] = ⟨false, false, false, false, ⟨1, 1, 1⟩⟩ ∧
  checkFrame false 4 [0x41, 0x43, 0x4B, 0x7F] = ⟨true, false, true, false, ⟨0, 0, 3⟩⟩ ∧
  checkFrame true 5 [0x01, 0x4E, 0x41, 0x4B, 0x12] = ⟨false, false, false, true, ⟨1, 1, 3⟩⟩ ∧
  checkFrame true 4 [0x00, 0x30, 0x30, 0x90] = ⟨false, true, false, false, ⟨0, 0, 0⟩⟩ ∧
  checkFrame false 5 [0x00, 0x30, 0x30, 0x90, 0xE1] = ⟨true, false, false, false, ⟨0, 0, 4⟩⟩ ∧
  checkFrame true 2 [0x05, 0x1B] = ⟨true, false, false, false, ⟨5, 1, 0⟩⟩

/-- R166 INJECT, with its corner cases: twice restores the frame, an injected frame that folded to 0 folds to 0x2A, and an
injected tag frame is neither ACK nor NAK to CHECK. -/
def Obligations.InjectFlipsOneBit : Prop :=
  EncodedAs .inject 0x00000009 ∧
  RejectsReserved 0x9 (fun w => field w 4 28 ≠ 0) ∧
  (∀ s : State, s.pend = none →
    exec .inject s = .next
      (if s.txlen.toNat < 2 then rejected s 3 0x9
      else if s.txlen = 4 ∧ bufBytes s .txf 4 = [0x00, 0x30, 0x30, 0x90] then rejected s 5 0x9
      else accepted s 0x00000009)) ∧
  (∀ (s : State) (p : Pending), s.pend = some p → 2 ≤ s.txlen.toNat → s.txlen.toNat ≤ 32 →
    ∃ t : State, exec .inject s = .next t ∧
      t = completed { s with mem := t.mem } ∧
      t.buf .txf (s.txlen.toNat - 2) = s.buf .txf (s.txlen.toNat - 2) ^^^ 0x02 ∧
      (∀ a, a ≠ 0x60 + (s.txlen.toNat - 2) → t.readByte a = s.readByte a) ∧
      (crc8 (bufBytes s .txf s.txlen.toNat) = 0 → crc8 (bufBytes t .txf t.txlen.toNat) = 0x2A) ∧
      (∃ u : State, exec .inject { t with pend := some p } = .next u ∧
        ∀ a, u.readByte a = s.readByte a)) ∧
  (∀ f ∈ [(false, [0x41, 0x43, 0x4B, 0x7F]), (false, [0x4E, 0x41, 0x4B, 0x12]),
      (true, [0x00, 0x41, 0x43, 0x4B, 0x7F]), (true, [0x01, 0x41, 0x43, 0x4B, 0x69]),
      (true, [0x00, 0x4E, 0x41, 0x4B, 0x12]), (true, [0x01, 0x4E, 0x41, 0x4B, 0x12])],
    let r := checkFrame f.1 (BitVec.ofNat 8 f.2.length) (f.2.set (f.2.length - 2) (0x4B ^^^ 0x02))
    r.isAck = false ∧ r.isNak = false)

/-- R167 LOOPBACK. -/
def Obligations.LoopbackCopiesFrame : Prop :=
  EncodedAs .loopback 0x0000000A ∧
  RejectsReserved 0xA (fun w => field w 4 28 ≠ 0) ∧
  (∀ s : State, s.pend = none →
    exec .loopback s =
      .next (if s.txlen.toNat < 2 then rejected s 3 0xA else accepted s 0x0000000A)) ∧
  (∀ (s : State) (p : Pending), s.pend = some p → 2 ≤ s.txlen.toNat → s.txlen.toNat ≤ 32 →
    ∃ t : State, exec .loopback s = .next t ∧
      t = completed { s with
        mem := t.mem, rxlen := s.txlen, status := { s.status with rxValid := false } } ∧
      (∀ k, k < s.txlen.toNat → t.buf .rxf k = s.buf .txf k) ∧
      (∀ a, ¬ (0x80 ≤ a ∧ a < 0x80 + s.txlen.toNat) → t.readByte a = s.readByte a))

/-- A data frame that is built, looped back and checked is reported valid, with its sequence byte and its payload
(41_framing.md, 42_check_and_test.md; the source's oracle "validated by CRC8 = 0"). Each `exec` is given a pending command
by hand, so that it is that command's completion: the model's choice of log 5. -/
def Obligations.FramedDataPassesCheck : Prop :=
  ∀ (s : State) (p : Pending) (h : Bool) (q n : Byte), s.pend = some p → (h = true ∨ q = 0) →
    1 ≤ n.toNat → n.toNat ≤ 31 - h.toNat →
    ∃ s1 s2 s3 : State,
      exec (.frameData h q n) s = .next s1 ∧
      exec .loopback { s1 with pend := some p } = .next s2 ∧
      exec (.check h) { s2 with pend := some p } = .next s3 ∧
      s3.status.crcOk = true ∧ s3.status.teardown = false ∧ s3.status.rxValid = true ∧
      s3.rxinfo = ⟨q, BitVec.ofNat 8 h.toNat, n⟩ ∧
      (∀ k, k < n.toNat → s3.buf .rxf (h.toNat + k) = s.buf .pld k)

/-- The same frame with one INJECT before the loopback is reported corrupted: the injected frame folds to 0x2A.
Each `exec` is a completion, as above (log 5). -/
def Obligations.InjectedDataFailsCheck : Prop :=
  ∀ (s : State) (p : Pending) (h : Bool) (q n : Byte), s.pend = some p → (h = true ∨ q = 0) →
    1 ≤ n.toNat → n.toNat ≤ 31 - h.toNat →
    ∃ s1 s2 s3 s4 : State,
      exec (.frameData h q n) s = .next s1 ∧ s1.firstCause .inject = none ∧
      exec .inject { s1 with pend := some p } = .next s2 ∧
      exec .loopback { s2 with pend := some p } = .next s3 ∧
      exec (.check h) { s3 with pend := some p } = .next s4 ∧
      crc8 (bufBytes s4 .rxf s4.rxlen.toNat) = 0x2A ∧
      s4.status.crcOk = false ∧ s4.status.teardown = false ∧ s4.status.rxValid = true

/-! ### The control commands and the timer -/

/-- R180 NOP. -/
def Obligations.NopSetsDoneOnly : Prop :=
  EncodedAs .nop 0x00000000 ∧
  RejectsReserved 0x0 (fun w => field w 4 28 ≠ 0) ∧
  AlwaysAccepted .nop ∧
  (∀ (s : State) (p : Pending), s.pend = some p → exec .nop s = .next (completed s)) ∧
  (∀ (s : State) (x : Inputs) (p : Pending), s.pend = some p →
    Requests x ⟨true, 0x08, 0x00000000, 0xF⟩ →
    CycleAdds s x (fun u => overrun u 7 0x0) ⟨0, false⟩)

/-- The completion of TMR_ARM, TMR_DISARM and RETRY_CLR and their checks (43_control.md, R181, R182, R183 but for the
cycles they share with a tick, which TimerMeetsCommand states). -/
def Obligations.TimerCommandsComplete : Prop :=
  EncodedAs .tmrArm 0x0000000B ∧ EncodedAs .tmrDisarm 0x0000000C ∧ EncodedAs .retryClr 0x0000000D ∧
  (∀ op ∈ [0xB#4, 0xC#4, 0xD#4], RejectsReserved op (fun w => field w 4 28 ≠ 0)) ∧
  (∀ s : State, s.pend = none →
    exec .tmrArm s =
      .next (if s.tload = 0 then rejected s 6 0xB else accepted s 0x0000000B)) ∧
  AlwaysAccepted .tmrDisarm ∧ AlwaysAccepted .retryClr ∧
  (∀ (s : State) (p : Pending), s.pend = some p →
    exec .tmrArm s =
      .next (completed { s with tcnt := s.tload, status := { s.status with armed := true } }) ∧
    exec .tmrDisarm s = .next (completed { s with status := { s.status with armed := false } }) ∧
    exec .retryClr s = .next (completed { s with retry := ⟨0, s.retry.limit⟩ }))

/-- R184 the reserved opcodes, and R96: rejected with RSVD_OP whatever the other fields hold. -/
def Obligations.ReservedOpcodesRejected : Prop :=
  (∀ (s : State) (rest : BitVec 28), s.pend = none →
    exec (.reservedE rest) s = .next (rejected s 1 0xE) ∧
    exec (.reservedF rest) s = .next (rejected s 1 0xF)) ∧
  (∀ (s : State) (w : Word), s.pend = none → field w 0 4 = 0xE ∨ field w 0 4 = 0xF →
    presentWord w s = .next (rejected s 1 (w.extractLsb' 0 4)))

/-- R220 the tick; and nothing but a completing TMR_ARM, TMR_DISARM or RETRY_CLR of the same cycle overrides it. -/
def Obligations.TickCountsDown : Prop :=
  (∀ s : State, s.afterTick false = s) ∧
  (∀ s : State, s.afterTick true =
    if s.status.armed = true then
      if s.tcnt.toNat ≤ 1 then
        { s with
          tcnt := 0
          status := { s.status with armed := false, timeout := true }
          retry := ⟨if s.retry.cnt = 0xFFFF then 0xFFFF else s.retry.cnt + 1, s.retry.limit⟩ }
      else { s with tcnt := s.tcnt - 1 }
    else s) ∧
  (∀ (s t : State) (x : Inputs), x.rst = false → cycleWith x s = .next t →
    (¬ CompletesOneOf s [0xB] → t.tcnt = (s.afterTick x.tick).tcnt) ∧
    (¬ CompletesOneOf s [0xB, 0xC] → t.status.armed = (s.afterTick x.tick).status.armed) ∧
    (¬ CompletesOneOf s [0xD] → t.retry.cnt = (s.afterTick x.tick).retry.cnt) ∧
    (x.tick = true → s.status.armed = true → s.tcnt.toNat ≤ 1 → t.status.timeout = true))

/-- R221: once armed, the timer expires on the tick that makes the number of ticks reach its count, and not before,
whatever else the inputs do, unless a reset, TMR_ARM or TMR_DISARM comes in between. That the expiring tick sets `TIMEOUT`
and counts the retry is stated by TickCountsDown. The input list is the model's choice (log 1). -/
def Obligations.TimerExpiresOnLastTick : Prop :=
  (∀ (s : State) (p : Pending), s.pend = some p → ∃ t, exec .tmrArm s = .next t ∧
    t.status.armed = true ∧ t.tcnt = s.tload ∧ t.status.timeout = s.status.timeout ∧ t.retry = s.retry) ∧
  ∀ (s t : State) (k : Nat), s.status.armed = true → s.tcnt ≠ 0 → k ≤ s.inputs.length →
    (∀ x ∈ s.inputs.take k, x.rst = false) →
    (∀ j u, j < k → RunsTo j s u → ¬ CompletesOneOf u [0xB, 0xC]) → RunsTo k s t →
    let ticks := ((s.inputs.take k).filter (fun x => x.tick)).length
    (ticks < s.tcnt.toNat → t.status.armed = true ∧ t.tcnt.toNat = s.tcnt.toNat - ticks) ∧
    (s.tcnt.toNat ≤ ticks → t.status.armed = false ∧ t.tcnt = 0)

/-- R222: only expiry increments the retry counter, by one and never past 0xFFFF; only RETRY_CLR and reset clear it. -/
def Obligations.RetryCountOnlyByExpiry : Prop :=
  ∀ s t : State, step s = .next t →
    (s.nextInputs.rst = true → t.retry.cnt = 0) ∧
    (s.nextInputs.rst = false →
      (CompletesOneOf s [0xD] → t.retry.cnt = 0) ∧
      (¬ CompletesOneOf s [0xD] →
        (s.nextInputs.tick = true ∧ s.status.armed = true ∧ s.tcnt.toNat ≤ 1 →
          t.retry.cnt.toNat = min (s.retry.cnt.toNat + 1) 0xFFFF) ∧
        (¬ (s.nextInputs.tick = true ∧ s.status.armed = true ∧ s.tcnt.toNat ≤ 1) →
          t.retry.cnt = s.retry.cnt)))

/-- R260: a tick in the cycle in which a timer command completes, and a W1C write in the cycle of an expiry. -/
def Obligations.TimerMeetsCommand : Prop :=
  (∀ (s t : State), s.status.armed = true → s.tcnt = 1 →
    cycleWith ⟨false, true, some ⟨true, 0x0C, 0x10, 0xF⟩⟩ s = .next t → t.status.timeout = true) ∧
  ∀ (s t : State) (p : Pending), cycleWith tickOnly s = .next t → s.pend = some p → p.remaining = 1 →
    (p.word = 0x0000000B → s.status.armed = true → s.tcnt = 1 →
      t.status.timeout = true ∧ t.retry.cnt.toNat = min (s.retry.cnt.toNat + 1) 0xFFFF ∧
        t.status.armed = true ∧ t.tcnt = s.tload) ∧
    (p.word = 0x0000000B → s.status.armed = false →
      t.status.armed = true ∧ t.tcnt = s.tload ∧ t.retry = s.retry ∧
        t.status.timeout = s.status.timeout) ∧
    (p.word = 0x0000000C → s.status.armed = true → s.tcnt = 1 →
      t.status.timeout = true ∧ t.retry.cnt.toNat = min (s.retry.cnt.toNat + 1) 0xFFFF ∧
        t.tcnt = 0 ∧ t.status.armed = false) ∧
    (p.word = 0x0000000C → s.status.armed = true → 1 < s.tcnt.toNat →
      t.tcnt = s.tcnt - 1 ∧ t.status.armed = false) ∧
    (p.word = 0x0000000D → s.status.armed = true → s.tcnt = 1 →
      t.status.timeout = true ∧ t.status.armed = false ∧ t.retry.cnt = 0)

/-! ### Acceptance, errors and the pending command -/

/-- A `CMD` write (R250 with the priority of R202 and the checks of R92 to R96, from the raw fields of the word): an
overrun while a command is pending; otherwise rejected with the first cause, or accepted. A `CMD` write with partial
strobes is a bus error and is never presented to acceptance. -/
def Obligations.AcceptanceTakesFirstCause : Prop :=
  (∀ (s : State) (x : Inputs) (w : Word) (strb : BitVec 4), Requests x ⟨true, 0x08, w, strb⟩ → strb ≠ 0xF →
    RaisesBuserr s x) ∧
  ∀ (s : State) (x : Inputs) (w : Word), Requests x ⟨true, 0x08, w, 0xF⟩ →
    CycleAdds s x
      (fun u =>
        if s.pend ≠ none then overrun u 7 (w.extractLsb' 0 4)
        else if causeOf s w ≠ 0 then rejected u (causeOf s w) (w.extractLsb' 0 4)
        else accepted u w)
      ⟨0, false⟩

/-- R204 and R255: a write with a strobe to a busy-gated target while a command is pending is discarded and raises
OVERRUN; the running command goes on. A write without a strobe does nothing. -/
def Obligations.BusyWritesOverrun : Prop :=
  ∀ (s : State) (x : Inputs) (q : Request), Requests x q → GoodWrite q → s.pend ≠ none →
    q.addr.toNat ∈ [0x08, 0x18, 0x24] ∨ (0x40 ≤ q.addr.toNat ∧ q.addr.toNat < 0x60) ∨
      (0x80 ≤ q.addr.toNat ∧ q.addr.toNat < 0xA0) →
    CycleAdds s x
      (fun u =>
        if q.wstrb = 0 then u
        else if q.addr = 0x08 then overrun u 7 (q.wdata.extractLsb' 0 4)
        else overrun u 8 0)
      ⟨0, false⟩

/-- R205: a captured error stays until `ERR` is written or a reset. -/
def Obligations.FirstErrorStays : Prop :=
  ∀ s t : State, step s = .next t → s.nextInputs.rst = false → s.err.cause ≠ 0 →
    t.err = s.err ∨
      (t.err = ⟨0, 0⟩ ∧ ∃ q, s.nextInputs.req = some q ∧ q.write = true ∧ q.addr = 0x30 ∧ q.wstrb = 0xF)

/-- R252: an accepted command waits `LAT` cycles, 1 to 32, and without a reset a pending command stays pending for exactly
its remaining count of cycles, whatever the inputs are; then `BUSY` reads 0 and `DONE` reads 1. The list that gives
the inputs is the model's choice (log 1), and what `LAT` may depend on is log 3. -/
def Obligations.PendingCommandCompletes : Prop :=
  (∀ (s : State) (i : Instr), s.pend = none → s.firstCause i = none →
    ∃ t, exec i s = .next t ∧ t.pend = some ⟨encode i, lat s (encode i)⟩ ∧
      1 ≤ lat s (encode i) ∧ lat s (encode i) ≤ 32) ∧
  ∀ (s : State) (p : Pending), s.pend = some p → 1 ≤ p.remaining →
    p.remaining ≤ s.inputs.length → (∀ x ∈ s.inputs.take p.remaining, x.rst = false) →
    (∀ k, k < p.remaining → ∃ t, RunsTo k s t ∧
      t.pend = some ⟨p.word, p.remaining - k⟩ ∧ t.busy = true) ∧
    (∃ t, RunsTo p.remaining s t ∧ t.pend = none ∧ t.busy = false ∧
      t.status.done = true)

/-- The handshake of R257 for every latency: a legal command written to an idle block and left alone is busy for `LAT`
cycles, and then the state is the one its completion leaves, whatever `LAT` is. The input list and the phases of
`exec` are the model's choices (logs 1, 5). -/
def Obligations.WrittenCommandTakesEffect : Prop :=
  ∀ (s : State) (i : Instr) (rest : List Inputs), s.pend = none → s.firstCause i = none →
    s.inputs = cmdWrite (encode i) :: (List.replicate (lat s (encode i)) idle ++ rest) →
    (∀ k, 1 ≤ k → k ≤ lat s (encode i) →
      ∃ t, RunsTo k s t ∧ t.busy = true ∧ t.status.done = false) ∧
    (∃ t u, RunsTo (lat s (encode i) + 1) s t ∧
      exec i { s with pend := some ⟨encode i, 1⟩ } = .next u ∧
      t = { u with inputs := rest, cycle := s.cycle + lat s (encode i) + 1, out := t.out } ∧
      t.busy = false ∧ t.status.done = true)

/-- R256: while a command waits, no cycle without a reset changes a result, a length, a buffer, the remainder or
`TLOAD`, whatever the host requests; only the timer fields, the ungated registers and the error flags can change. -/
def Obligations.NothingShowsBeforeCompletion : Prop :=
  ∀ (s t : State) (p : Pending), s.pend = some p → 1 < p.remaining → s.nextInputs.rst = false →
    step s = .next t →
    t.crcRem = s.crcRem ∧ t.txlen = s.txlen ∧ t.rxlen = s.rxlen ∧ t.rxinfo = s.rxinfo ∧
    t.tload = s.tload ∧ t.mem = s.mem ∧ t.bufHist = s.bufHist ∧ t.results = s.results ∧
    t.status.rxValid = s.status.rxValid ∧ t.busy = true ∧
    (∀ a, t.readByte a = s.readByte a)

/-! ### Who may write what -/

/-- R35: only CRC_CLR, CRC_BYTE and CRC_PLD write the running remainder (and reset, to 0); it reads at `0x10` with zeros
above, and a write there is a bus error. -/
def Obligations.OnlyCrcCommandsWriteRem : Prop :=
  (∀ s t : State, step s = .next t → t.crcRem ≠ s.crcRem →
    s.nextInputs.rst = true ∨ CompletesOneOf s [0x1, 0x2, 0x3]) ∧
  State.reset.crcRem = 0x00 ∧
  (∀ (s : State) (q : Request), q.write = false → q.addr = 0x10 →
    s.respond (some q) = ⟨0#24 ++ s.crcRem, false⟩) ∧
  (∀ (s : State) (x : Inputs) (q : Request), Requests x q → q.write = true → q.addr = 0x10 →
    RaisesBuserr s x)

/-- R36: only the FRAME_* completions write `TXLEN` (and reset). -/
def Obligations.OnlyFramingWritesTxlen : Prop :=
  ∀ s t : State, step s = .next t → t.txlen ≠ s.txlen →
    s.nextInputs.rst = true ∨ CompletesOneOf s [0x4, 0x5, 0x6, 0x7]

/-- R34 and R38: only a completing CHECK writes the decode results (and reset). -/
def Obligations.OnlyCheckWritesResults : Prop :=
  ∀ s t : State, step s = .next t → t.results ≠ s.results →
    s.nextInputs.rst = true ∨ CompletesOneOf s [0x8]

/-- R45, R46, R47: `PLD` bytes change only by an accepted host write to their word, `TXF` bytes only by a FRAME_*
command or INJECT, `RXF` bytes only by LOOPBACK or an accepted host write to their word (and all by reset). -/
def Obligations.BufferBytesHaveKnownWriters : Prop :=
  ∀ (s t : State) (b : Buf) (k : Nat), step s = .next t → s.nextInputs.rst = false → k < 32 →
    t.buf b k ≠ s.buf b k →
    let hostWrite := ∃ q, s.nextInputs.req = some q ∧ q.write = true ∧ s.pend = none ∧
      b.base + k - k % 4 = q.addr.toNat ∧ q.wstrb.getLsbD (k % 4) = true
    match b with
    | .pld => hostWrite
    | .txf => CompletesOneOf s [0x4, 0x5, 0x6, 0x7, 0x9]
    | .rxf => hostWrite ∨ CompletesOneOf s [0xA]

/-! ### The bus -/

/-- R62: a request with a misaligned offset raises BUSERR. -/
def Obligations.MisalignedRequestsRaiseBuserr : Prop :=
  ∀ (s : State) (x : Inputs) (q : Request), Requests x q → q.addr.extractLsb' 0 2 ≠ 0 →
    RaisesBuserr s x

/-- R66: a request to an unmapped offset raises BUSERR. -/
def Obligations.UnmappedRequestsRaiseBuserr : Prop :=
  ∀ (s : State) (x : Inputs) (q : Request), Requests x q →
    (0x34 ≤ q.addr.toNat ∧ q.addr.toNat ≤ 0x3F) ∨ 0xA0 ≤ q.addr.toNat → RaisesBuserr s x

/-- R63: a control-register write without all strobes raises BUSERR, and a read ignores the strobes; and writes to
read-only registers and to `TXF` raise BUSERR (20_memory.md section 2). -/
def Obligations.ForbiddenWritesRaiseBuserr : Prop :=
  (∀ (s : State) (x : Inputs) (q : Request), Requests x q → q.write = true →
    (q.addr.toNat ∈ [0x00, 0x10, 0x14, 0x1C, 0x28] ∨ (0x60 ≤ q.addr.toNat ∧ q.addr.toNat < 0x80) ∨
      (q.addr.toNat ≤ 0x30 ∧ q.wstrb ≠ 0xF)) → RaisesBuserr s x) ∧
  (∀ (s : State) (q : Request) (strb : BitVec 4), q.write = false →
    s.respond (some { q with wstrb := strb }) = s.respond (some q))

/-- Reads have no side effects (20_memory.md section 3). -/
def Obligations.ReadsHaveNoSideEffects : Prop :=
  ∀ (s : State) (x : Inputs) (q : Request), Requests x q → q.write = false →
    CycleAdds s x id (s.respond x.req)

/-- The reads of the register map (20_memory.md section 5, R78), from every state. -/
def Obligations.ReadsReturnRegisters : Prop :=
  ∀ (s : State) (q : Request), q.write = false →
    let answers := fun (a : Nat) (v : Word) => q.addr = BitVec.ofNat 8 a → s.respond (some q) = ⟨v, false⟩
    answers 0x00 0x43524338 ∧
    answers 0x04 (0#28 ++ BitVec.ofBool s.ctrl.ieExh ++ BitVec.ofBool s.ctrl.ieTmo ++
      BitVec.ofBool s.ctrl.ieErr ++ BitVec.ofBool s.ctrl.ieDone) ∧
    answers 0x08 0 ∧ answers 0x0C s.statusWord ∧
    answers 0x10 (s.crcRem.setWidth 32) ∧ answers 0x14 (s.txlen.setWidth 32) ∧
    answers 0x18 (s.rxlen.setWidth 32) ∧
    answers 0x1C (0#8 ++ s.rxinfo.plen ++ s.rxinfo.poff ++ s.rxinfo.seq) ∧
    answers 0x20 (0#16 ++ crcTable s.tableIdx ++ s.tableIdx) ∧ answers 0x24 s.tload ∧
    answers 0x28 s.tcnt ∧ answers 0x2C (s.retry.limit ++ s.retry.cnt) ∧
    answers 0x30 (0#24 ++ s.err.op ++ s.err.cause) ∧
    (∀ (b : Buf) (j : Nat), j < 8 → answers (b.base + 4 * j)
      (s.buf b (4 * j + 3) ++ s.buf b (4 * j + 2) ++ s.buf b (4 * j + 1) ++ s.buf b (4 * j)))

/-- The bits of `STATUS` (10_state.md section 3), and R210: `irq` from them, computed from the state at the start of the
cycle, and 0 at reset. The reset cycle's own output is ResetCycleOutputs. -/
def Obligations.StatusBitsAndIrq : Prop :=
  ∀ s : State,
    (List.range 32).map s.statusWord.getLsbD =
      [s.pend.isSome, s.status.done, s.status.errIll, s.status.errOvr, s.status.timeout,
        decide (s.retry.limit ≠ 0 ∧ s.retry.limit.toNat ≤ s.retry.cnt.toNat), s.status.armed,
        s.status.rxValid, s.status.crcOk, s.status.teardown, s.status.isAck, s.status.isNak] ++
      List.replicate 20 false ∧
    (s.irq = true ↔
      (s.statusWord.getLsbD 1 = true ∧ s.ctrl.toWord.getLsbD 0 = true) ∨
      ((s.statusWord.getLsbD 2 = true ∨ s.statusWord.getLsbD 3 = true) ∧
        s.ctrl.toWord.getLsbD 1 = true) ∨
      (s.statusWord.getLsbD 4 = true ∧ s.ctrl.toWord.getLsbD 2 = true) ∨
      (s.statusWord.getLsbD 5 = true ∧ s.ctrl.toWord.getLsbD 3 = true)) ∧
    (∀ (x : Inputs) (t : State), x.rst = false → cycleWith x s = .next t → t.out.irq = s.irq) ∧
    State.reset.irq = false

/-- The writes to `CTRL`, `TABLE`, `RETRY` and `ERR`, which are never gated (10_state.md R24, R39, R42, R43). -/
def Obligations.UngatedRegisterWrites : Prop :=
  ∀ (s : State) (x : Inputs) (a : Nat) (w : Word), Requests x ⟨true, BitVec.ofNat 8 a, w, 0xF⟩ →
    (a = 0x04 → CycleAdds s x
      (fun u => { u with ctrl := ⟨w.getLsbD 0, w.getLsbD 1, w.getLsbD 2, w.getLsbD 3⟩ }) ⟨0, false⟩) ∧
    (a = 0x20 → CycleAdds s x (fun u => { u with tableIdx := w.extractLsb' 0 8 }) ⟨0, false⟩) ∧
    (a = 0x2C → CycleAdds s x
      (fun u => { u with retry := ⟨u.retry.cnt, w.extractLsb' 16 16⟩ }) ⟨0, false⟩) ∧
    (a = 0x30 → CycleAdds s x (fun u => { u with err := ⟨0, 0⟩ }) ⟨0, false⟩)

/-- The accepted writes to `RXLEN` and `TLOAD` while nothing is pending (10_state.md R37, R40). -/
def Obligations.GatedRegisterWrites : Prop :=
  ∀ (s : State) (x : Inputs) (a : Nat) (w : Word), Requests x ⟨true, BitVec.ofNat 8 a, w, 0xF⟩ →
    s.pend = none →
    (a = 0x18 → CycleAdds s x
      (fun u => { u with
        rxlen := w.extractLsb' 0 8, status := { u.status with rxValid := false } }) ⟨0, false⟩) ∧
    (a = 0x24 → CycleAdds s x (fun u => { u with tload := w }) ⟨0, false⟩)

/-- R254: a W1C write to `STATUS` never loses an event of its own cycle (a completion, R251, sets `DONE`; an expiry, R220,
sets `TIMEOUT`); the other bits it names are cleared, and no other field is written. -/
def Obligations.SetBeatsClear : Prop :=
  ∀ (s : State) (x : Inputs) (w : Word), Requests x ⟨true, 0x0C, w, 0xF⟩ →
    CycleAdds s x
      (fun u => { u with
        status := { u.status with
          done :=
            if w.getLsbD 1 = true ∧ ¬ (∃ p, s.pend = some p ∧ p.remaining ≤ 1) then false else u.status.done
          errIll := if w.getLsbD 2 = true then false else u.status.errIll
          errOvr := if w.getLsbD 3 = true then false else u.status.errOvr
          timeout :=
            if w.getLsbD 4 = true ∧
                ¬ (x.tick = true ∧ s.status.armed = true ∧ s.tcnt.toNat ≤ 1) then false
            else u.status.timeout } })
      ⟨0, false⟩

/-- R64: a write to `PLD` or `RXF` that is not gated (nothing is pending, or no strobe is set) writes exactly the strobed
lanes, and clears `RX_VALID` when a lane of `RXF` is written; it raises no error. -/
def Obligations.BufferWriteStoresLanes : Prop :=
  ∀ (s : State) (x : Inputs) (b : Buf) (j : Nat) (w : Word) (strb : BitVec 4), b ≠ .txf → j < 8 →
    Requests x ⟨true, BitVec.ofNat 8 (b.base + 4 * j), w, strb⟩ → s.pend = none ∨ strb = 0 →
    ∃ t u : State, cycleWith x s = .next t ∧ cycleWith { x with req := none } s = .next u ∧
      t = { u with
        mem := t.mem
        status := { u.status with rxValid := u.status.rxValid && (b == .pld || strb == 0) }
        out := ⟨⟨0, false⟩, s.irq⟩ } ∧
      (∀ k, k < 4 → t.buf b (4 * j + k) =
        if strb.getLsbD k = true then w.extractLsb' (8 * k) 8 else u.buf b (4 * j + k)) ∧
      (∀ a, ¬ (b.base + 4 * j ≤ a ∧ a < b.base + 4 * j + 4) → t.readByte a = u.readByte a) ∧
      (s.pend = none → u.mem = s.mem)

/-! ### Reset and invariants -/

/-- R240, R241 and R261: a cycle with `rst = 1` leaves every register at its reset value, aborts the pending command,
and answers no request, whatever the request and the tick; the registers read as 95_test_vectors.md section 2.10 lists.
The buffers after a reset are R242's matter; the model's own fields are left open here. -/
def Obligations.ResetCycleClearsRegisters : Prop :=
  (∀ (s : State) (x : Inputs), x.rst = true →
    ∃ history inputs cycle irq, cycleWith x s = .next { State.reset with
      bufHist := history, inputs := inputs, cycle := cycle, out := ⟨⟨0, false⟩, irq⟩ }) ∧
  [Target.id, .ctrl, .cmd, .status, .crc, .txlen, .rxlen, .rxinfo, .table, .tload, .tcnt, .retry,
      .err].map State.reset.readWord =
    [0x43524338, 0, 0, 0, 0, 0, 0, 0, 0, 0, 0, 0, 0] ∧
  State.reset.pend = none ∧ State.reset.irq = false

/-- The invariant holds at reset. -/
def Obligations.ResetStateMeetsInvariant : Prop :=
  State.reset.Inv ∧ State.reset.RxCurrent

/-- Every step keeps the invariant: canonical memory, a legal frame length over written bytes, legal error codes, an
armed timer with ticks left, `DONE` and `BUSY` exclusive, a pending command that is still legal, and consistent
decode results. -/
def Obligations.StepKeepsInvariant : Prop :=
  ∀ s t : State, s.Inv → step s = .next t → t.Inv

/-- Every step keeps `RX_VALID` truthful: while it is 1, the results are those of the frame now in `RXF` (R33). -/
def Obligations.StepKeepsRxCurrent : Prop :=
  ∀ s t : State, s.RxCurrent → step s = .next t → t.RxCurrent

/-- The reset cycle's own outputs and the model's fields through it: `irq` is still that of the state at the start of the
cycle (the model's reading, log 8), the inputs and the count of cycles go on (log 8), and the buffers' old bytes become
the history that their new unspecified contents may depend on (log 4). -/
def Obligations.ResetCycleOutputs : Prop :=
  ∀ (s : State) (x : Inputs), x.rst = true → ∃ t : State, cycleWith x s = .next t ∧
    t.out = ⟨⟨0, false⟩, s.irq⟩ ∧ t.inputs = s.inputs ∧ t.cycle = s.cycle ∧
    t.bufHist = s.mem :: s.bufHist ∧
    (∀ a, t.readByte a = Config.bufInit (s.mem :: s.bufHist) a)
end

