-- ==== Sys2Proof/Laws/State.lean ====
section
/-! SUPPORT. What each named update of State leaves in each field, one lemma per field per update, so that no proof
unfolds a record update. -/

namespace Sys2Proof.Machine

variable (s : State)

/-! ### `State.accept` -/

@[simp] theorem State.accept_ctrl (i : Instr) : (s.accept i).ctrl = s.ctrl := rfl
@[simp] theorem State.accept_status (i : Instr) :
    (s.accept i).status = { s.status with done := false } := rfl
@[simp] theorem State.accept_crcRem (i : Instr) : (s.accept i).crcRem = s.crcRem := rfl
@[simp] theorem State.accept_txlen (i : Instr) : (s.accept i).txlen = s.txlen := rfl
@[simp] theorem State.accept_rxlen (i : Instr) : (s.accept i).rxlen = s.rxlen := rfl
@[simp] theorem State.accept_rxinfo (i : Instr) : (s.accept i).rxinfo = s.rxinfo := rfl
@[simp] theorem State.accept_tableIdx (i : Instr) : (s.accept i).tableIdx = s.tableIdx := rfl
@[simp] theorem State.accept_tload (i : Instr) : (s.accept i).tload = s.tload := rfl
@[simp] theorem State.accept_tcnt (i : Instr) : (s.accept i).tcnt = s.tcnt := rfl
@[simp] theorem State.accept_retry (i : Instr) : (s.accept i).retry = s.retry := rfl
@[simp] theorem State.accept_err (i : Instr) : (s.accept i).err = s.err := rfl
@[simp] theorem State.accept_pend (i : Instr) :
    (s.accept i).pend = some ⟨encode i, s.latency (encode i)⟩ := rfl
@[simp] theorem State.accept_mem (i : Instr) : (s.accept i).mem = s.mem := rfl
@[simp] theorem State.accept_bufHist (i : Instr) : (s.accept i).bufHist = s.bufHist := rfl
@[simp] theorem State.accept_inputs (i : Instr) : (s.accept i).inputs = s.inputs := rfl
@[simp] theorem State.accept_cycle (i : Instr) : (s.accept i).cycle = s.cycle := rfl
@[simp] theorem State.accept_out (i : Instr) : (s.accept i).out = s.out := rfl

/-! ### `State.finish` -/

@[simp] theorem State.finish_ctrl : s.finish.ctrl = s.ctrl := rfl
@[simp] theorem State.finish_status : s.finish.status = { s.status with done := true } := rfl
@[simp] theorem State.finish_crcRem : s.finish.crcRem = s.crcRem := rfl
@[simp] theorem State.finish_txlen : s.finish.txlen = s.txlen := rfl
@[simp] theorem State.finish_rxlen : s.finish.rxlen = s.rxlen := rfl
@[simp] theorem State.finish_rxinfo : s.finish.rxinfo = s.rxinfo := rfl
@[simp] theorem State.finish_tableIdx : s.finish.tableIdx = s.tableIdx := rfl
@[simp] theorem State.finish_tload : s.finish.tload = s.tload := rfl
@[simp] theorem State.finish_tcnt : s.finish.tcnt = s.tcnt := rfl
@[simp] theorem State.finish_retry : s.finish.retry = s.retry := rfl
@[simp] theorem State.finish_err : s.finish.err = s.err := rfl
@[simp] theorem State.finish_pend : s.finish.pend = none := rfl
@[simp] theorem State.finish_mem : s.finish.mem = s.mem := rfl
@[simp] theorem State.finish_bufHist : s.finish.bufHist = s.bufHist := rfl
@[simp] theorem State.finish_inputs : s.finish.inputs = s.inputs := rfl
@[simp] theorem State.finish_cycle : s.finish.cycle = s.cycle := rfl
@[simp] theorem State.finish_out : s.finish.out = s.out := rfl

/-! ### `State.countDown` -/

@[simp] theorem State.countDown_ctrl (p : Pending) : (s.countDown p).ctrl = s.ctrl := rfl
@[simp] theorem State.countDown_status (p : Pending) : (s.countDown p).status = s.status := rfl
@[simp] theorem State.countDown_crcRem (p : Pending) : (s.countDown p).crcRem = s.crcRem := rfl
@[simp] theorem State.countDown_txlen (p : Pending) : (s.countDown p).txlen = s.txlen := rfl
@[simp] theorem State.countDown_rxlen (p : Pending) : (s.countDown p).rxlen = s.rxlen := rfl
@[simp] theorem State.countDown_rxinfo (p : Pending) : (s.countDown p).rxinfo = s.rxinfo := rfl
@[simp] theorem State.countDown_tableIdx (p : Pending) :
    (s.countDown p).tableIdx = s.tableIdx := rfl
@[simp] theorem State.countDown_tload (p : Pending) : (s.countDown p).tload = s.tload := rfl
@[simp] theorem State.countDown_tcnt (p : Pending) : (s.countDown p).tcnt = s.tcnt := rfl
@[simp] theorem State.countDown_retry (p : Pending) : (s.countDown p).retry = s.retry := rfl
@[simp] theorem State.countDown_err (p : Pending) : (s.countDown p).err = s.err := rfl
@[simp] theorem State.countDown_pend (p : Pending) :
    (s.countDown p).pend = some { p with remaining := p.remaining - 1 } := rfl
@[simp] theorem State.countDown_mem (p : Pending) : (s.countDown p).mem = s.mem := rfl
@[simp] theorem State.countDown_bufHist (p : Pending) : (s.countDown p).bufHist = s.bufHist := rfl
@[simp] theorem State.countDown_inputs (p : Pending) : (s.countDown p).inputs = s.inputs := rfl
@[simp] theorem State.countDown_cycle (p : Pending) : (s.countDown p).cycle = s.cycle := rfl
@[simp] theorem State.countDown_out (p : Pending) : (s.countDown p).out = s.out := rfl

/-! ### `State.raiseIllegal` -/

@[simp] theorem State.raiseIllegal_ctrl (c : Cause) (op : BitVec 4) :
    (s.raiseIllegal c op).ctrl = s.ctrl := rfl
@[simp] theorem State.raiseIllegal_status (c : Cause) (op : BitVec 4) :
    (s.raiseIllegal c op).status = { s.status with errIll := true, done := true } := rfl
@[simp] theorem State.raiseIllegal_crcRem (c : Cause) (op : BitVec 4) :
    (s.raiseIllegal c op).crcRem = s.crcRem := rfl
@[simp] theorem State.raiseIllegal_txlen (c : Cause) (op : BitVec 4) :
    (s.raiseIllegal c op).txlen = s.txlen := rfl
@[simp] theorem State.raiseIllegal_rxlen (c : Cause) (op : BitVec 4) :
    (s.raiseIllegal c op).rxlen = s.rxlen := rfl
@[simp] theorem State.raiseIllegal_rxinfo (c : Cause) (op : BitVec 4) :
    (s.raiseIllegal c op).rxinfo = s.rxinfo := rfl
@[simp] theorem State.raiseIllegal_tableIdx (c : Cause) (op : BitVec 4) :
    (s.raiseIllegal c op).tableIdx = s.tableIdx := rfl
@[simp] theorem State.raiseIllegal_tload (c : Cause) (op : BitVec 4) :
    (s.raiseIllegal c op).tload = s.tload := rfl
@[simp] theorem State.raiseIllegal_tcnt (c : Cause) (op : BitVec 4) :
    (s.raiseIllegal c op).tcnt = s.tcnt := rfl
@[simp] theorem State.raiseIllegal_retry (c : Cause) (op : BitVec 4) :
    (s.raiseIllegal c op).retry = s.retry := rfl
@[simp] theorem State.raiseIllegal_err (c : Cause) (op : BitVec 4) :
    (s.raiseIllegal c op).err = s.err.capture c op := rfl
@[simp] theorem State.raiseIllegal_pend (c : Cause) (op : BitVec 4) :
    (s.raiseIllegal c op).pend = s.pend := rfl
@[simp] theorem State.raiseIllegal_mem (c : Cause) (op : BitVec 4) :
    (s.raiseIllegal c op).mem = s.mem := rfl
@[simp] theorem State.raiseIllegal_bufHist (c : Cause) (op : BitVec 4) :
    (s.raiseIllegal c op).bufHist = s.bufHist := rfl
@[simp] theorem State.raiseIllegal_inputs (c : Cause) (op : BitVec 4) :
    (s.raiseIllegal c op).inputs = s.inputs := rfl
@[simp] theorem State.raiseIllegal_cycle (c : Cause) (op : BitVec 4) :
    (s.raiseIllegal c op).cycle = s.cycle := rfl
@[simp] theorem State.raiseIllegal_out (c : Cause) (op : BitVec 4) :
    (s.raiseIllegal c op).out = s.out := rfl

/-! ### `State.raiseOverrun` -/

@[simp] theorem State.raiseOverrun_ctrl (c : Cause) (op : BitVec 4) :
    (s.raiseOverrun c op).ctrl = s.ctrl := rfl
@[simp] theorem State.raiseOverrun_status (c : Cause) (op : BitVec 4) :
    (s.raiseOverrun c op).status = { s.status with errOvr := true } := rfl
@[simp] theorem State.raiseOverrun_crcRem (c : Cause) (op : BitVec 4) :
    (s.raiseOverrun c op).crcRem = s.crcRem := rfl
@[simp] theorem State.raiseOverrun_txlen (c : Cause) (op : BitVec 4) :
    (s.raiseOverrun c op).txlen = s.txlen := rfl
@[simp] theorem State.raiseOverrun_rxlen (c : Cause) (op : BitVec 4) :
    (s.raiseOverrun c op).rxlen = s.rxlen := rfl
@[simp] theorem State.raiseOverrun_rxinfo (c : Cause) (op : BitVec 4) :
    (s.raiseOverrun c op).rxinfo = s.rxinfo := rfl
@[simp] theorem State.raiseOverrun_tableIdx (c : Cause) (op : BitVec 4) :
    (s.raiseOverrun c op).tableIdx = s.tableIdx := rfl
@[simp] theorem State.raiseOverrun_tload (c : Cause) (op : BitVec 4) :
    (s.raiseOverrun c op).tload = s.tload := rfl
@[simp] theorem State.raiseOverrun_tcnt (c : Cause) (op : BitVec 4) :
    (s.raiseOverrun c op).tcnt = s.tcnt := rfl
@[simp] theorem State.raiseOverrun_retry (c : Cause) (op : BitVec 4) :
    (s.raiseOverrun c op).retry = s.retry := rfl
@[simp] theorem State.raiseOverrun_err (c : Cause) (op : BitVec 4) :
    (s.raiseOverrun c op).err = s.err.capture c op := rfl
@[simp] theorem State.raiseOverrun_pend (c : Cause) (op : BitVec 4) :
    (s.raiseOverrun c op).pend = s.pend := rfl
@[simp] theorem State.raiseOverrun_mem (c : Cause) (op : BitVec 4) :
    (s.raiseOverrun c op).mem = s.mem := rfl
@[simp] theorem State.raiseOverrun_bufHist (c : Cause) (op : BitVec 4) :
    (s.raiseOverrun c op).bufHist = s.bufHist := rfl
@[simp] theorem State.raiseOverrun_inputs (c : Cause) (op : BitVec 4) :
    (s.raiseOverrun c op).inputs = s.inputs := rfl
@[simp] theorem State.raiseOverrun_cycle (c : Cause) (op : BitVec 4) :
    (s.raiseOverrun c op).cycle = s.cycle := rfl
@[simp] theorem State.raiseOverrun_out (c : Cause) (op : BitVec 4) :
    (s.raiseOverrun c op).out = s.out := rfl

/-! ### `State.setRem` -/

@[simp] theorem State.setRem_ctrl (r : Byte) : (s.setRem r).ctrl = s.ctrl := rfl
@[simp] theorem State.setRem_status (r : Byte) : (s.setRem r).status = s.status := rfl
@[simp] theorem State.setRem_crcRem (r : Byte) : (s.setRem r).crcRem = r := rfl
@[simp] theorem State.setRem_txlen (r : Byte) : (s.setRem r).txlen = s.txlen := rfl
@[simp] theorem State.setRem_rxlen (r : Byte) : (s.setRem r).rxlen = s.rxlen := rfl
@[simp] theorem State.setRem_rxinfo (r : Byte) : (s.setRem r).rxinfo = s.rxinfo := rfl
@[simp] theorem State.setRem_tableIdx (r : Byte) : (s.setRem r).tableIdx = s.tableIdx := rfl
@[simp] theorem State.setRem_tload (r : Byte) : (s.setRem r).tload = s.tload := rfl
@[simp] theorem State.setRem_tcnt (r : Byte) : (s.setRem r).tcnt = s.tcnt := rfl
@[simp] theorem State.setRem_retry (r : Byte) : (s.setRem r).retry = s.retry := rfl
@[simp] theorem State.setRem_err (r : Byte) : (s.setRem r).err = s.err := rfl
@[simp] theorem State.setRem_pend (r : Byte) : (s.setRem r).pend = s.pend := rfl
@[simp] theorem State.setRem_mem (r : Byte) : (s.setRem r).mem = s.mem := rfl
@[simp] theorem State.setRem_bufHist (r : Byte) : (s.setRem r).bufHist = s.bufHist := rfl
@[simp] theorem State.setRem_inputs (r : Byte) : (s.setRem r).inputs = s.inputs := rfl
@[simp] theorem State.setRem_cycle (r : Byte) : (s.setRem r).cycle = s.cycle := rfl
@[simp] theorem State.setRem_out (r : Byte) : (s.setRem r).out = s.out := rfl

/-! ### `State.putBytes` -/

@[simp] theorem State.putBytes_ctrl (b : Buf) (vs : List Byte) :
    (s.putBytes b vs).ctrl = s.ctrl := rfl
@[simp] theorem State.putBytes_status (b : Buf) (vs : List Byte) :
    (s.putBytes b vs).status = s.status := rfl
@[simp] theorem State.putBytes_crcRem (b : Buf) (vs : List Byte) :
    (s.putBytes b vs).crcRem = s.crcRem := rfl
@[simp] theorem State.putBytes_txlen (b : Buf) (vs : List Byte) :
    (s.putBytes b vs).txlen = s.txlen := rfl
@[simp] theorem State.putBytes_rxlen (b : Buf) (vs : List Byte) :
    (s.putBytes b vs).rxlen = s.rxlen := rfl
@[simp] theorem State.putBytes_rxinfo (b : Buf) (vs : List Byte) :
    (s.putBytes b vs).rxinfo = s.rxinfo := rfl
@[simp] theorem State.putBytes_tableIdx (b : Buf) (vs : List Byte) :
    (s.putBytes b vs).tableIdx = s.tableIdx := rfl
@[simp] theorem State.putBytes_tload (b : Buf) (vs : List Byte) :
    (s.putBytes b vs).tload = s.tload := rfl
@[simp] theorem State.putBytes_tcnt (b : Buf) (vs : List Byte) :
    (s.putBytes b vs).tcnt = s.tcnt := rfl
@[simp] theorem State.putBytes_retry (b : Buf) (vs : List Byte) :
    (s.putBytes b vs).retry = s.retry := rfl
@[simp] theorem State.putBytes_err (b : Buf) (vs : List Byte) : (s.putBytes b vs).err = s.err := rfl
@[simp] theorem State.putBytes_pend (b : Buf) (vs : List Byte) :
    (s.putBytes b vs).pend = s.pend := rfl
@[simp] theorem State.putBytes_mem (b : Buf) (vs : List Byte) :
    (s.putBytes b vs).mem = s.mem.setBytes b 0 vs := rfl
@[simp] theorem State.putBytes_bufHist (b : Buf) (vs : List Byte) :
    (s.putBytes b vs).bufHist = s.bufHist := rfl
@[simp] theorem State.putBytes_inputs (b : Buf) (vs : List Byte) :
    (s.putBytes b vs).inputs = s.inputs := rfl
@[simp] theorem State.putBytes_cycle (b : Buf) (vs : List Byte) :
    (s.putBytes b vs).cycle = s.cycle := rfl
@[simp] theorem State.putBytes_out (b : Buf) (vs : List Byte) : (s.putBytes b vs).out = s.out := rfl

/-! ### `State.putFrame` -/

@[simp] theorem State.putFrame_ctrl (f : List Byte) : (s.putFrame f).ctrl = s.ctrl := rfl
@[simp] theorem State.putFrame_status (f : List Byte) : (s.putFrame f).status = s.status := rfl
@[simp] theorem State.putFrame_crcRem (f : List Byte) : (s.putFrame f).crcRem = s.crcRem := rfl
@[simp] theorem State.putFrame_txlen (f : List Byte) :
    (s.putFrame f).txlen = BitVec.ofNat 8 f.length := rfl
@[simp] theorem State.putFrame_rxlen (f : List Byte) : (s.putFrame f).rxlen = s.rxlen := rfl
@[simp] theorem State.putFrame_rxinfo (f : List Byte) : (s.putFrame f).rxinfo = s.rxinfo := rfl
@[simp] theorem State.putFrame_tableIdx (f : List Byte) :
    (s.putFrame f).tableIdx = s.tableIdx := rfl
@[simp] theorem State.putFrame_tload (f : List Byte) : (s.putFrame f).tload = s.tload := rfl
@[simp] theorem State.putFrame_tcnt (f : List Byte) : (s.putFrame f).tcnt = s.tcnt := rfl
@[simp] theorem State.putFrame_retry (f : List Byte) : (s.putFrame f).retry = s.retry := rfl
@[simp] theorem State.putFrame_err (f : List Byte) : (s.putFrame f).err = s.err := rfl
@[simp] theorem State.putFrame_pend (f : List Byte) : (s.putFrame f).pend = s.pend := rfl
@[simp] theorem State.putFrame_mem (f : List Byte) :
    (s.putFrame f).mem = s.mem.setBytes .txf 0 f := rfl
@[simp] theorem State.putFrame_bufHist (f : List Byte) : (s.putFrame f).bufHist = s.bufHist := rfl
@[simp] theorem State.putFrame_inputs (f : List Byte) : (s.putFrame f).inputs = s.inputs := rfl
@[simp] theorem State.putFrame_cycle (f : List Byte) : (s.putFrame f).cycle = s.cycle := rfl
@[simp] theorem State.putFrame_out (f : List Byte) : (s.putFrame f).out = s.out := rfl

/-! ### `State.putResult` -/

@[simp] theorem State.putResult_ctrl (r : CheckResult) : (s.putResult r).ctrl = s.ctrl := rfl
@[simp] theorem State.putResult_status (r : CheckResult) :
    (s.putResult r).status = { s.status with crcOk := r.crcOk, teardown := r.teardown, isAck := r.isAck, isNak := r.isNak, rxValid := true } := rfl
@[simp] theorem State.putResult_crcRem (r : CheckResult) : (s.putResult r).crcRem = s.crcRem := rfl
@[simp] theorem State.putResult_txlen (r : CheckResult) : (s.putResult r).txlen = s.txlen := rfl
@[simp] theorem State.putResult_rxlen (r : CheckResult) : (s.putResult r).rxlen = s.rxlen := rfl
@[simp] theorem State.putResult_rxinfo (r : CheckResult) : (s.putResult r).rxinfo = r.info := rfl
@[simp] theorem State.putResult_tableIdx (r : CheckResult) :
    (s.putResult r).tableIdx = s.tableIdx := rfl
@[simp] theorem State.putResult_tload (r : CheckResult) : (s.putResult r).tload = s.tload := rfl
@[simp] theorem State.putResult_tcnt (r : CheckResult) : (s.putResult r).tcnt = s.tcnt := rfl
@[simp] theorem State.putResult_retry (r : CheckResult) : (s.putResult r).retry = s.retry := rfl
@[simp] theorem State.putResult_err (r : CheckResult) : (s.putResult r).err = s.err := rfl
@[simp] theorem State.putResult_pend (r : CheckResult) : (s.putResult r).pend = s.pend := rfl
@[simp] theorem State.putResult_mem (r : CheckResult) : (s.putResult r).mem = s.mem := rfl
@[simp] theorem State.putResult_bufHist (r : CheckResult) :
    (s.putResult r).bufHist = s.bufHist := rfl
@[simp] theorem State.putResult_inputs (r : CheckResult) : (s.putResult r).inputs = s.inputs := rfl
@[simp] theorem State.putResult_cycle (r : CheckResult) : (s.putResult r).cycle = s.cycle := rfl
@[simp] theorem State.putResult_out (r : CheckResult) : (s.putResult r).out = s.out := rfl

/-! ### `State.staleRx` -/

@[simp] theorem State.staleRx_ctrl : s.staleRx.ctrl = s.ctrl := rfl
@[simp] theorem State.staleRx_status : s.staleRx.status = { s.status with rxValid := false } := rfl
@[simp] theorem State.staleRx_crcRem : s.staleRx.crcRem = s.crcRem := rfl
@[simp] theorem State.staleRx_txlen : s.staleRx.txlen = s.txlen := rfl
@[simp] theorem State.staleRx_rxlen : s.staleRx.rxlen = s.rxlen := rfl
@[simp] theorem State.staleRx_rxinfo : s.staleRx.rxinfo = s.rxinfo := rfl
@[simp] theorem State.staleRx_tableIdx : s.staleRx.tableIdx = s.tableIdx := rfl
@[simp] theorem State.staleRx_tload : s.staleRx.tload = s.tload := rfl
@[simp] theorem State.staleRx_tcnt : s.staleRx.tcnt = s.tcnt := rfl
@[simp] theorem State.staleRx_retry : s.staleRx.retry = s.retry := rfl
@[simp] theorem State.staleRx_err : s.staleRx.err = s.err := rfl
@[simp] theorem State.staleRx_pend : s.staleRx.pend = s.pend := rfl
@[simp] theorem State.staleRx_mem : s.staleRx.mem = s.mem := rfl
@[simp] theorem State.staleRx_bufHist : s.staleRx.bufHist = s.bufHist := rfl
@[simp] theorem State.staleRx_inputs : s.staleRx.inputs = s.inputs := rfl
@[simp] theorem State.staleRx_cycle : s.staleRx.cycle = s.cycle := rfl
@[simp] theorem State.staleRx_out : s.staleRx.out = s.out := rfl

/-! ### `State.takeInputs` -/

@[simp] theorem State.takeInputs_ctrl : s.takeInputs.ctrl = s.ctrl := rfl
@[simp] theorem State.takeInputs_status : s.takeInputs.status = s.status := rfl
@[simp] theorem State.takeInputs_crcRem : s.takeInputs.crcRem = s.crcRem := rfl
@[simp] theorem State.takeInputs_txlen : s.takeInputs.txlen = s.txlen := rfl
@[simp] theorem State.takeInputs_rxlen : s.takeInputs.rxlen = s.rxlen := rfl
@[simp] theorem State.takeInputs_rxinfo : s.takeInputs.rxinfo = s.rxinfo := rfl
@[simp] theorem State.takeInputs_tableIdx : s.takeInputs.tableIdx = s.tableIdx := rfl
@[simp] theorem State.takeInputs_tload : s.takeInputs.tload = s.tload := rfl
@[simp] theorem State.takeInputs_tcnt : s.takeInputs.tcnt = s.tcnt := rfl
@[simp] theorem State.takeInputs_retry : s.takeInputs.retry = s.retry := rfl
@[simp] theorem State.takeInputs_err : s.takeInputs.err = s.err := rfl
@[simp] theorem State.takeInputs_pend : s.takeInputs.pend = s.pend := rfl
@[simp] theorem State.takeInputs_mem : s.takeInputs.mem = s.mem := rfl
@[simp] theorem State.takeInputs_bufHist : s.takeInputs.bufHist = s.bufHist := rfl
@[simp] theorem State.takeInputs_inputs : s.takeInputs.inputs = s.inputs.tail := rfl
@[simp] theorem State.takeInputs_cycle : s.takeInputs.cycle = s.cycle + 1 := rfl
@[simp] theorem State.takeInputs_out : s.takeInputs.out = s.out := rfl

/-! ### `State.resetCycle` -/

@[simp] theorem State.resetCycle_ctrl : s.resetCycle.ctrl = ⟨false, false, false, false⟩ := rfl
@[simp] theorem State.resetCycle_status : s.resetCycle.status = ⟨false, false, false, false, false, false, false, false, false, false⟩ := rfl
@[simp] theorem State.resetCycle_crcRem : s.resetCycle.crcRem = 0 := rfl
@[simp] theorem State.resetCycle_txlen : s.resetCycle.txlen = 0 := rfl
@[simp] theorem State.resetCycle_rxlen : s.resetCycle.rxlen = 0 := rfl
@[simp] theorem State.resetCycle_rxinfo : s.resetCycle.rxinfo = ⟨0, 0, 0⟩ := rfl
@[simp] theorem State.resetCycle_tableIdx : s.resetCycle.tableIdx = 0 := rfl
@[simp] theorem State.resetCycle_tload : s.resetCycle.tload = 0 := rfl
@[simp] theorem State.resetCycle_tcnt : s.resetCycle.tcnt = 0 := rfl
@[simp] theorem State.resetCycle_retry : s.resetCycle.retry = ⟨0, 0⟩ := rfl
@[simp] theorem State.resetCycle_err : s.resetCycle.err = ⟨0, 0⟩ := rfl
@[simp] theorem State.resetCycle_pend : s.resetCycle.pend = none := rfl
@[simp] theorem State.resetCycle_mem : s.resetCycle.mem = [] := rfl
@[simp] theorem State.resetCycle_bufHist : s.resetCycle.bufHist = s.mem :: s.bufHist := rfl
@[simp] theorem State.resetCycle_inputs : s.resetCycle.inputs = s.inputs := rfl
@[simp] theorem State.resetCycle_cycle : s.resetCycle.cycle = s.cycle := rfl
@[simp] theorem State.resetCycle_out : s.resetCycle.out = s.out := rfl

/-! ### What a tick leaves alone (60_exceptions.md R220) -/

@[simp] theorem State.timerTick_ctrl : s.timerTick.ctrl = s.ctrl := by
  unfold State.timerTick; split <;> [split <;> rfl; rfl]
@[simp] theorem State.timerTick_crcRem : s.timerTick.crcRem = s.crcRem := by
  unfold State.timerTick; split <;> [split <;> rfl; rfl]
@[simp] theorem State.timerTick_txlen : s.timerTick.txlen = s.txlen := by
  unfold State.timerTick; split <;> [split <;> rfl; rfl]
@[simp] theorem State.timerTick_rxlen : s.timerTick.rxlen = s.rxlen := by
  unfold State.timerTick; split <;> [split <;> rfl; rfl]
@[simp] theorem State.timerTick_rxinfo : s.timerTick.rxinfo = s.rxinfo := by
  unfold State.timerTick; split <;> [split <;> rfl; rfl]
@[simp] theorem State.timerTick_tableIdx : s.timerTick.tableIdx = s.tableIdx := by
  unfold State.timerTick; split <;> [split <;> rfl; rfl]
@[simp] theorem State.timerTick_tload : s.timerTick.tload = s.tload := by
  unfold State.timerTick; split <;> [split <;> rfl; rfl]
@[simp] theorem State.timerTick_err : s.timerTick.err = s.err := by
  unfold State.timerTick; split <;> [split <;> rfl; rfl]
@[simp] theorem State.timerTick_pend : s.timerTick.pend = s.pend := by
  unfold State.timerTick; split <;> [split <;> rfl; rfl]
@[simp] theorem State.timerTick_mem : s.timerTick.mem = s.mem := by
  unfold State.timerTick; split <;> [split <;> rfl; rfl]
@[simp] theorem State.timerTick_bufHist : s.timerTick.bufHist = s.bufHist := by
  unfold State.timerTick; split <;> [split <;> rfl; rfl]
@[simp] theorem State.timerTick_inputs : s.timerTick.inputs = s.inputs := by
  unfold State.timerTick; split <;> [split <;> rfl; rfl]
@[simp] theorem State.timerTick_cycle : s.timerTick.cycle = s.cycle := by
  unfold State.timerTick; split <;> [split <;> rfl; rfl]
@[simp] theorem State.timerTick_out : s.timerTick.out = s.out := by
  unfold State.timerTick; split <;> [split <;> rfl; rfl]

@[simp] theorem State.afterTick_ctrl (t : Bool) : (s.afterTick t).ctrl = s.ctrl := by
  cases t <;> simp [State.afterTick]
@[simp] theorem State.afterTick_crcRem (t : Bool) : (s.afterTick t).crcRem = s.crcRem := by
  cases t <;> simp [State.afterTick]
@[simp] theorem State.afterTick_txlen (t : Bool) : (s.afterTick t).txlen = s.txlen := by
  cases t <;> simp [State.afterTick]
@[simp] theorem State.afterTick_rxlen (t : Bool) : (s.afterTick t).rxlen = s.rxlen := by
  cases t <;> simp [State.afterTick]
@[simp] theorem State.afterTick_rxinfo (t : Bool) : (s.afterTick t).rxinfo = s.rxinfo := by
  cases t <;> simp [State.afterTick]
@[simp] theorem State.afterTick_tableIdx (t : Bool) : (s.afterTick t).tableIdx = s.tableIdx := by
  cases t <;> simp [State.afterTick]
@[simp] theorem State.afterTick_tload (t : Bool) : (s.afterTick t).tload = s.tload := by
  cases t <;> simp [State.afterTick]
@[simp] theorem State.afterTick_err (t : Bool) : (s.afterTick t).err = s.err := by
  cases t <;> simp [State.afterTick]
@[simp] theorem State.afterTick_pend (t : Bool) : (s.afterTick t).pend = s.pend := by
  cases t <;> simp [State.afterTick]
@[simp] theorem State.afterTick_mem (t : Bool) : (s.afterTick t).mem = s.mem := by
  cases t <;> simp [State.afterTick]
@[simp] theorem State.afterTick_bufHist (t : Bool) : (s.afterTick t).bufHist = s.bufHist := by
  cases t <;> simp [State.afterTick]
@[simp] theorem State.afterTick_inputs (t : Bool) : (s.afterTick t).inputs = s.inputs := by
  cases t <;> simp [State.afterTick]
@[simp] theorem State.afterTick_cycle (t : Bool) : (s.afterTick t).cycle = s.cycle := by
  cases t <;> simp [State.afterTick]
@[simp] theorem State.afterTick_out (t : Bool) : (s.afterTick t).out = s.out := by
  cases t <;> simp [State.afterTick]

end Sys2Proof.Machine
end

