-- ==== Sys2Proof/Laws/Memory.lean ====
section
/-! SUPPORT. The buffers' memory: what a read sees after each write, and that each write keeps the canonical form. -/

namespace Sys2Proof.Machine

@[simp] theorem Memory.read_nil (a : Nat) : Memory.read [] a = none := rfl

/-- A read after a write sees the written byte at its offset and the old bytes elsewhere. -/
theorem Memory.read_write (m : Memory) (a : Nat) (v : Byte) (c : Nat) :
    (m.write a v).read c = if c = a then some v else m.read c := by
  induction m with
  | nil => simp [Memory.write, Memory.read]
  | cons x m ih =>
    obtain ⟨b, u⟩ := x
    simp only [Memory.write]
    split
    · simp [Memory.read]
    · split
      · subst_vars
        by_cases h : c = b <;> simp [Memory.read, h]
      · by_cases h : c = b
        · have : c ≠ a := by omega
          simp [Memory.read, h]
          omega
        · simp [Memory.read, h, ih]

@[simp] theorem Memory.read_write_self (m : Memory) (a : Nat) (v : Byte) :
    (m.write a v).read a = some v := by simp [Memory.read_write]

theorem Memory.read_write_other (m : Memory) {a c : Nat} (v : Byte) (h : c ≠ a) :
    (m.write a v).read c = m.read c := by simp [Memory.read_write, h]

/-- Every entry after a write is the written one or an old one. -/
theorem Memory.mem_write {m : Memory} {a : Nat} {v : Byte} {c : Host.Cell} (h : c ∈ m.write a v) :
    c = (a, v) ∨ c ∈ m := by
  induction m with
  | nil => simpa [Memory.write] using h
  | cons x m ih =>
    obtain ⟨b, u⟩ := x
    simp only [Memory.write] at h
    split at h
    · simpa using h
    · split at h
      · simp only [List.mem_cons] at h ⊢
        tauto
      · simp only [List.mem_cons] at h ⊢
        rcases h with h | h
        · exact .inr (.inl h)
        · rcases ih h with h | h
          · exact .inl h
          · exact .inr (.inr h)

/-- A write keeps the offsets strictly rising. -/
theorem Memory.rising_write {m : Memory} (a : Nat) (v : Byte)
    (h : m.Pairwise (fun c d => c.1 < d.1)) : (m.write a v).Pairwise (fun c d => c.1 < d.1) := by
  induction m with
  | nil => simp [Memory.write]
  | cons x m ih =>
    obtain ⟨b, u⟩ := x
    rw [List.pairwise_cons] at h
    obtain ⟨hb, hm⟩ := h
    simp only [Memory.write]
    split
    next hab =>
      refine List.pairwise_cons.2 ⟨?_, List.pairwise_cons.2 ⟨hb, hm⟩⟩
      intro d hd
      rcases List.mem_cons.1 hd with rfl | hd
      · exact hab
      · exact lt_trans hab (hb d hd)
    next hab =>
      split
      next he => subst he; exact List.pairwise_cons.2 ⟨hb, hm⟩
      next he =>
        refine List.pairwise_cons.2 ⟨?_, ih hm⟩
        intro d hd
        rcases Memory.mem_write hd with rfl | hd
        · exact lt_of_le_of_ne (Nat.le_of_not_lt hab) (Ne.symm he)
        · exact hb d hd

/-- A write inside the buffer windows keeps the canonical form. -/
theorem Memory.wf_write {m : Memory} {a : Nat} (v : Byte) (h : m.wf) (ha : 0x40 ≤ a ∧ a < 0xA0) :
    (m.write a v).wf := by
  refine ⟨Memory.rising_write a v h.1, fun c hc => ?_⟩
  rcases Memory.mem_write hc with rfl | hc
  · exact ha
  · exact h.2 c hc

theorem Buf.base_bounds (b : Buf) : 0x40 ≤ b.base ∧ b.base + 32 ≤ 0xA0 := by
  cases b <;> decide

theorem Memory.wf_setBuf {m : Memory} (b : Buf) (i : Nat) (v : Byte) (h : m.wf) :
    (m.setBuf b i v).wf := by
  unfold Memory.setBuf
  split
  next hi =>
    have := b.base_bounds
    simp only [Config.bufN] at hi
    exact Memory.wf_write v h (by omega)
  next => exact h

theorem Memory.wf_setBytes {m : Memory} (b : Buf) (k : Nat) (vs : List Byte) (h : m.wf) :
    (m.setBytes b k vs).wf := by
  induction vs generalizing m k with
  | nil => exact h
  | cons v vs ih => exact ih _ (Memory.wf_setBuf b k v h)

theorem Memory.wf_setLanes {m : Memory} (b : Buf) (j : Nat) (w : Word) (strb : BitVec 4) (h : m.wf) :
    (m.setLanes b j w strb).wf := by
  unfold Memory.setLanes
  generalize [0, 1, 2, 3] = ks
  induction ks generalizing m with
  | nil => exact h
  | cons k ks ih =>
    refine ih ?_
    by_cases hk : strb.getLsbD k = true
    · simpa [hk] using Memory.wf_setBuf b _ _ h
    · simpa [hk] using h

/-- A buffer write: byte `i` of the buffer if it has one, nothing else. -/
theorem Memory.read_setBuf (m : Memory) (b : Buf) (i : Nat) (v : Byte) (a : Nat) :
    (m.setBuf b i v).read a = if i < 32 ∧ a = b.base + i then some v else m.read a := by
  unfold Memory.setBuf
  by_cases h : i < Config.bufN
  · have h' : i < 32 := h
    simp [h, h', Memory.read_write]
  · have h' : ¬ i < 32 := h
    simp [h, h']

/-- A sequence write reaches exactly the bytes `k .. k + length - 1` of the buffer. -/
theorem Memory.read_setBytes_other (m : Memory) (b : Buf) (k : Nat) (vs : List Byte) (a : Nat)
    (h : ¬ (b.base + k ≤ a ∧ a < b.base + k + vs.length)) : (m.setBytes b k vs).read a = m.read a := by
  induction vs generalizing m k with
  | nil => rfl
  | cons v vs ih =>
    simp only [List.length_cons] at h
    rw [Memory.setBytes, ih _ _ (by omega), Memory.read_setBuf, if_neg (by omega)]

/-- Byte `k + j` of the buffer holds entry `j` of the sequence. -/
theorem Memory.read_setBytes (m : Memory) (b : Buf) (k j : Nat) (vs : List Byte)
    (hj : j < vs.length) (hk : k + j < 32) :
    (m.setBytes b k vs).read (b.base + (k + j)) = some (vs.getD j 0) := by
  induction vs generalizing m k j with
  | nil => simp at hj
  | cons v vs ih =>
    rw [Memory.setBytes]
    cases j with
    | zero =>
      rw [Memory.read_setBytes_other _ _ _ _ _ (by omega), Memory.read_setBuf, if_pos ⟨by omega, by omega⟩]
      simp
    | succ j =>
      have := ih (m.setBuf b k v) (k + 1) j (by simpa using hj) (by omega)
      rw [show k + (j + 1) = k + 1 + j by omega, this]
      simp

/-- A strobed word write reaches exactly the strobed lanes. -/
theorem Memory.read_setLanes (m : Memory) (b : Buf) (j : Nat) (w : Word) (strb : BitVec 4) (a : Nat)
    (hj : j + 4 ≤ 32) :
    (m.setLanes b j w strb).read a =
      if b.base + j ≤ a ∧ a < b.base + j + 4 ∧ strb.getLsbD (a - (b.base + j)) = true then
        some (w.extractLsb' (8 * (a - (b.base + j))) 8)
      else m.read a := by
  have lane : ∀ (m : Memory) (k : Nat), k < 4 →
      (if strb.getLsbD k then m.setBuf b (j + k) (w.extractLsb' (8 * k) 8) else m).read a =
        if a = b.base + (j + k) ∧ strb.getLsbD k = true then some (w.extractLsb' (8 * k) 8)
        else m.read a := by
    intro m k hk
    by_cases hs : strb.getLsbD k = true
    · have hb : j + k < 32 := by omega
      simp [hs, Memory.read_setBuf, hb]
    · simp [hs]
  simp only [Memory.setLanes, List.foldl]
  rw [lane _ 3 (by omega), lane _ 2 (by omega), lane _ 1 (by omega), lane _ 0 (by omega)]
  by_cases h : b.base + j ≤ a ∧ a < b.base + j + 4
  · obtain ⟨k, hk, rfl⟩ : ∃ k, k < 4 ∧ a = b.base + j + k := ⟨a - (b.base + j), by omega, by omega⟩
    rw [show b.base + j + k - (b.base + j) = k by omega]
    have hkk : k = 0 ∨ k = 1 ∨ k = 2 ∨ k = 3 := by omega
    rcases hkk with rfl | rfl | rfl | rfl <;> simp [Nat.add_assoc]
  · rw [if_neg (by omega), if_neg (by omega), if_neg (by omega), if_neg (by omega), if_neg (by tauto)]

/-- The memory after reset is in canonical form. -/
theorem State.reset_mem_wf : State.reset.mem.wf := by decide

/-! ### Reading through the state -/

/-- A byte reads by the memory and the reset history alone. -/
theorem State.readByte_congr {s t : State} (a : Nat) (hm : s.mem.read a = t.mem.read a)
    (hh : s.bufHist = t.bufHist) : s.readByte a = t.readByte a := by
  simp [State.readByte, State.unwritten, hm, hh]

theorem State.bytes_congr {s t : State} (b : Buf) (n : Nat)
    (h : ∀ k, k < 32 → s.buf b k = t.buf b k) : s.bytes b n = t.bytes b n := by
  unfold State.bytes
  apply List.map_congr_left
  intro k hk
  simp only [List.mem_range, Config.bufN] at hk
  exact h k (by omega)

@[simp] theorem State.length_bytes (s : State) (b : Buf) (n : Nat) :
    (s.bytes b n).length = min n 32 := by
  simp [State.bytes, Config.bufN]

end Sys2Proof.Machine
end

