-- ==== Sys2Proof/Laws/Step.lean ====
section
/-! SUPPORT. What a command, a cycle and a step can do, said once: each always answers one next state, given here as a
plain function of the state and the inputs. -/

namespace Sys2Proof.Machine

@[simp] theorem andThen_next (s : State) (f : State → Result) : andThen (.next s) f = f s := rfl

/-! ### Commands -/

/-- The completion effects of each command (70_reset_and_hazards.md R251, `effects(w)`). -/
def effectsOf : Instr → State → State
  | .nop => nopEffect
  | .crcClr => crcClrEffect
  | .crcByte data => crcByteEffect data
  | .crcPld len => crcPldEffect len
  | .frameData hasSeq seq len => frameDataEffect hasSeq seq len
  | .frameAck kind seq => frameAckEffect kind seq
  | .frameSwtag kind hasSeq seq => frameSwtagEffect kind hasSeq seq
  | .frameTeardown => frameTeardownEffect
  | .check hasSeq => checkEffect hasSeq
  | .inject => injectEffect
  | .loopback => loopbackEffect
  | .tmrArm => tmrArmEffect
  | .tmrDisarm => tmrDisarmEffect
  | .retryClr => retryClrEffect
  | .reservedE _ => reservedEffect
  | .reservedF _ => reservedEffect

/-- Every command is its acceptance checks and its effects. -/
theorem exec_eq_runCommand (i : Instr) (s : State) : exec i s = s.runCommand i (effectsOf i) := by
  cases i <;> rfl

/-- The state a command presented to acceptance leaves. -/
def State.presented (s : State) (i : Instr) : State :=
  match s.firstCause i with
  | some c => s.raiseIllegal c i.opcode
  | none => s.accept i

theorem exec_of_idle (i : Instr) {s : State} (h : s.pend = none) :
    exec i s = .next (s.presented i) := by
  rw [exec_eq_runCommand, State.runCommand, h, State.presented]
  cases s.firstCause i <;> rfl

theorem exec_of_pending (i : Instr) {s : State} {p : Pending} (h : s.pend = some p) :
    exec i s = .next (effectsOf i s).finish := by
  rw [exec_eq_runCommand, State.runCommand, h]

theorem presented_of_legal {i : Instr} {s : State} (h : s.firstCause i = none) :
    s.presented i = s.accept i := by
  simp [State.presented, h]

theorem presented_of_cause {i : Instr} {s : State} {c : Cause} (h : s.firstCause i = some c) :
    s.presented i = s.raiseIllegal c i.opcode := by
  simp [State.presented, h]

/-- When a cycle completes a command (70_reset_and_hazards.md R251). -/
theorem completes_iff {s : State} :
    s.completes = true ↔ ∃ p, s.pend = some p ∧ p.remaining ≤ 1 := by
  cases h : s.pend <;> simp [State.completes, h]

/-- When a tick expires the timer (60_exceptions.md R220). -/
theorem expiring_iff {s : State} : s.expiring = true ↔ s.status.armed = true ∧ s.tcnt.toNat ≤ 1 := by
  simp [State.expiring]

/-- The state a command leaves, in either phase. -/
def State.commanded (s : State) (i : Instr) : State :=
  if s.busy then (effectsOf i s).finish else s.presented i

theorem exec_eq (i : Instr) (s : State) : exec i s = .next (s.commanded i) := by
  cases h : s.pend with
  | none => rw [exec_of_idle i h]; simp [State.commanded, State.busy, h]
  | some p => rw [exec_of_pending i h]; simp [State.commanded, State.busy, h]

/-! ### The parts of a cycle -/

/-- The state a `CMD` write leaves while nothing is pending. -/
def State.written (s : State) (w : Word) : State :=
  match decode w with
  | .ok i => s.commanded i
  | .error (.reservedField op) => s.raiseIllegal .rsvdField op

theorem presentWord_eq (w : Word) (s : State) : presentWord w s = .next (s.written w) := by
  unfold presentWord State.written
  rcases decode w with ⟨op⟩ | i
  · rfl
  · exact exec_eq i s

/-- The state the engine's part of a cycle leaves (70_reset_and_hazards.md R251). -/
def State.advanced (s : State) : State :=
  match s.pend with
  | none => s
  | some p =>
    if p.remaining ≤ 1 then
      match decode p.word with
      | .ok i => (effectsOf i s).finish
      | .error _ => s.finish
    else s.countDown p

theorem advance_eq (s : State) : advance s = .next s.advanced := by
  unfold advance State.advanced completeWord
  cases h : s.pend with
  | none => rfl
  | some p =>
    by_cases hr : p.remaining ≤ 1
    · simp only [hr, if_true]
      rcases decode p.word with ⟨op⟩ | i
      · rfl
      · exact exec_of_pending i h
    · simp [hr]

theorem advanced_of_idle {s : State} (h : s.pend = none) : s.advanced = s := by
  simp [State.advanced, h]

theorem advanced_of_waiting {s : State} {p : Pending} (h : s.pend = some p) (hr : 1 < p.remaining) :
    s.advanced = s.countDown p := by
  have : ¬ p.remaining ≤ 1 := by omega
  simp [State.advanced, h, this]

theorem advanced_of_due {s : State} {p : Pending} {i : Instr} (h : s.pend = some p)
    (hr : p.remaining ≤ 1) (hd : decode p.word = .ok i) :
    s.advanced = (effectsOf i s).finish := by
  simp [State.advanced, h, hr, hd]

/-- The state the request's part of a cycle leaves (70_reset_and_hazards.md R253); `s0` is the state before the cycle. -/
def State.requested (s0 : State) (tick : Bool) (req : Option Request) (s : State) : State :=
  match req with
  | none => s
  | some q =>
    if q.write && !q.busErr then
      if q.wstrb = 0 then s
      else if q.target.gated && s0.busy then s.overrun q.target q.wdata
      else if q.target = .cmd then s.written q.wdata
      else s.writeTarget s0.completes (tick && s0.expiring) q.target q.wdata q.wstrb
    else s

theorem requestEffect_eq (s0 : State) (tick : Bool) (req : Option Request) (s : State) :
    requestEffect s0 tick req s = .next (s0.requested tick req s) := by
  unfold requestEffect State.requested writeEffect
  cases req with
  | none => rfl
  | some q =>
    simp only
    split
    · split
      · rfl
      · split
        · rfl
        · split
          · exact presentWord_eq _ _
          · rfl
    · rfl

/-- The state a cycle leaves. -/
def State.cycled (s : State) (x : Inputs) : State :=
  if x.rst then { s.resetCycle with out := s.outputs x }
  else { s.requested x.tick x.req (s.afterTick x.tick).advanced with out := s.outputs x }

/-- A cycle always answers one next state. -/
theorem cycleWith_eq (x : Inputs) (s : State) : cycleWith x s = .next (s.cycled x) := by
  unfold cycleWith State.cycled
  cases x.rst with
  | true => rfl
  | false => simp [advance_eq, requestEffect_eq]

theorem cycled_of_run {x : Inputs} (s : State) (h : x.rst = false) :
    s.cycled x =
      { s.requested x.tick x.req (s.afterTick x.tick).advanced with out := s.outputs x } := by
  simp [State.cycled, h]

theorem cycled_of_reset {x : Inputs} (s : State) (h : x.rst = true) :
    s.cycled x = { s.resetCycle with out := s.outputs x } := by
  simp [State.cycled, h]

/-- A step always answers one next state. -/
theorem step_eq (s : State) : step s = .next (s.takeInputs.cycled s.nextInputs) :=
  cycleWith_eq _ _

/-! ### The tick -/

theorem timerTick_of_expiring {s : State} (h : s.expiring = true) :
    s.timerTick =
      { s with
        tcnt := 0
        status := { s.status with armed := false, timeout := true }
        retry := s.retry.bump } := by
  simp only [State.expiring, Bool.and_eq_true, decide_eq_true_eq] at h
  simp [State.timerTick, h.1, h.2]

theorem timerTick_of_counting {s : State} (ha : s.status.armed = true) (ht : 1 < s.tcnt.toNat) :
    s.timerTick = { s with tcnt := s.tcnt - 1 } := by
  have : ¬ s.tcnt.toNat ≤ 1 := by omega
  simp [State.timerTick, ha, this]

theorem timerTick_of_disarmed {s : State} (h : s.status.armed = false) : s.timerTick = s := by
  simp [State.timerTick, h]

@[simp] theorem afterTick_false (s : State) : s.afterTick false = s := rfl

@[simp] theorem afterTick_true (s : State) : s.afterTick true = s.timerTick := rfl

/-- A tick changes no status bit but `ARMED` and `TIMEOUT`. -/
theorem afterTick_status (s : State) (t : Bool) :
    (s.afterTick t).status =
      { s.status with
        armed := s.status.armed && !(t && s.expiring)
        timeout := s.status.timeout || (t && s.expiring) } := by
  cases t with
  | false => simp
  | true =>
    by_cases ha : s.status.armed = true
    · by_cases ht : s.tcnt.toNat ≤ 1
      · simp [State.timerTick, State.expiring, ha, ht]
      · simp [State.timerTick, State.expiring, ha, ht]
        rw [← ha]
    · have hf : s.status.armed = false := by simpa using ha
      simp [State.timerTick, State.expiring, hf]
      rw [← hf]

/-- A tick changes no operand of a command (70_reset_and_hazards.md R251). -/
@[simp] theorem firstCause_afterTick (s : State) (t : Bool) (i : Instr) :
    (s.afterTick t).firstCause i = s.firstCause i := by
  have hb : ∀ n, (s.afterTick t).bytes .txf n = s.bytes .txf n := fun n =>
    State.bytes_congr _ _ fun k _ => State.readByte_congr _ (by simp) (by simp)
  cases i <;> simp [State.firstCause, checkCause, injectCause, txlenCause, tmrArmCause, hb]

/-! ### Everything each part of a cycle can do -/

/-- Acceptance never reports an overrun. -/
theorem firstCause_ne_overrun {s : State} {i : Instr} {c : Cause} (h : s.firstCause i = some c) :
    c ≠ .ovrCmd ∧ c ≠ .ovrWrite := by
  have of_unless : ∀ b d, causeUnless b d = some c → d = c := by
    intro b d hb
    cases b <;> simp_all [causeUnless]
  have of_or : ∀ a b : Option Cause, a.or b = some c → a = some c ∨ b = some c := by
    intro a b hab
    cases a <;> simp_all
  cases i
  case nop | crcClr | crcByte | frameAck | frameTeardown | tmrDisarm | retryClr =>
    exact absurd h (by simp [State.firstCause])
  case crcPld | check | loopback | tmrArm => rw [← of_unless _ _ h]; decide
  case frameData | frameSwtag =>
    rcases of_or _ _ h with h | h <;> rw [← of_unless _ _ h] <;> decide
  case inject =>
    rcases of_or _ _ h with h | h <;> rw [← of_unless _ _ h] <;> decide
  case reservedE | reservedF =>
    rw [← Option.some.inj (show some Cause.rsvdOp = some c from h)]
    decide

/-- What a `CMD` write can do while nothing is pending (70_reset_and_hazards.md R250). -/
theorem written_cases (s : State) (w : Word) (h : s.pend = none) :
    (∃ c op, c ≠ .ovrCmd ∧ c ≠ .ovrWrite ∧ s.written w = s.raiseIllegal c op) ∨
    (∃ i, decode w = .ok i ∧ s.firstCause i = none ∧ s.written w = s.accept i) := by
  unfold State.written State.commanded State.busy
  rw [h]
  rcases hd : decode w with ⟨⟨op⟩⟩ | i
  · exact .inl ⟨.rsvdField, op, by decide, by decide, rfl⟩
  · cases hc : s.firstCause i with
    | none => exact .inr ⟨i, rfl, hc, presented_of_legal hc⟩
    | some c =>
      have := firstCause_ne_overrun hc
      exact .inl ⟨c, i.opcode, this.1, this.2, presented_of_cause hc⟩

/-- What the engine's part of a cycle can do (70_reset_and_hazards.md R251). -/
theorem advanced_cases (s : State) :
    (s.pend = none ∧ s.advanced = s) ∨
    (∃ p, s.pend = some p ∧ 1 < p.remaining ∧ s.advanced = s.countDown p) ∨
    (∃ p, s.pend = some p ∧ p.remaining ≤ 1 ∧
      ((∃ i, decode p.word = .ok i ∧ s.advanced = (effectsOf i s).finish) ∨
        ((∀ i, decode p.word ≠ .ok i) ∧ s.advanced = s.finish))) := by
  cases h : s.pend with
  | none => exact .inl ⟨rfl, advanced_of_idle h⟩
  | some p =>
    by_cases hr : p.remaining ≤ 1
    · refine .inr (.inr ⟨p, rfl, hr, ?_⟩)
      rcases hd : decode p.word with e | i
      · exact .inr ⟨by simp, by simp [State.advanced, h, hr, hd]⟩
      · exact .inl ⟨i, rfl, advanced_of_due h hr hd⟩
    · exact .inr (.inl ⟨p, rfl, by omega, advanced_of_waiting h (by omega)⟩)

/-- Nothing becomes pending in the engine's part of a cycle. -/
theorem advanced_idle_of_idle {s : State} (h : s.pend = none) : s.advanced.pend = none := by
  rw [advanced_of_idle h, h]

/-- What the request's part of a cycle can do (70_reset_and_hazards.md R253): nothing, an overrun, a rejected command,
an accepted command, or an accepted write to another target. -/
theorem requested_cases (s0 : State) (tick : Bool) (req : Option Request) (u : State)
    (idle : s0.pend = none → u.pend = none) :
    s0.requested tick req u = u ∨
    (s0.busy = true ∧ ∃ q, req = some q ∧ s0.requested tick req u = u.overrun q.target q.wdata) ∨
    (s0.pend = none ∧ ∃ c op, c ≠ .ovrCmd ∧ c ≠ .ovrWrite ∧
      s0.requested tick req u = u.raiseIllegal c op) ∨
    (s0.pend = none ∧ ∃ i, u.firstCause i = none ∧ s0.requested tick req u = u.accept i) ∨
    (∃ q, req = some q ∧ q.write = true ∧ q.busErr = false ∧ q.wstrb ≠ 0 ∧
      (q.target.gated = true → s0.pend = none) ∧
      s0.requested tick req u =
        u.writeTarget s0.completes (tick && s0.expiring) q.target q.wdata q.wstrb) := by
  cases req with
  | none => exact .inl rfl
  | some q =>
    unfold State.requested
    simp only
    by_cases hw : (q.write && !q.busErr) = true
    · rw [if_pos hw]
      simp only [Bool.and_eq_true, Bool.not_eq_true'] at hw
      by_cases hs : q.wstrb = 0
      · exact .inl (if_pos hs)
      · rw [if_neg hs]
        have free : (q.target.gated && s0.busy) = false → q.target.gated = true → s0.pend = none := by
          intro hg ht
          cases hp : s0.pend with
          | none => rfl
          | some p => simp [ht, State.busy, hp] at hg
        cases hg : q.target.gated && s0.busy with
        | true =>
          rw [if_pos rfl]
          simp only [Bool.and_eq_true] at hg
          exact .inr (.inl ⟨hg.2, q, rfl, rfl⟩)
        | false =>
          rw [if_neg Bool.false_ne_true]
          by_cases hc : q.target = .cmd
          · rw [if_pos hc]
            have hu := free hg (by rw [hc]; rfl)
            rcases written_cases u q.wdata (idle hu) with ⟨c, op, h1, h2, h⟩ | ⟨i, -, h1, h⟩
            · exact .inr (.inr (.inl ⟨hu, c, op, h1, h2, h⟩))
            · exact .inr (.inr (.inr (.inl ⟨hu, i, h1, h⟩)))
          · rw [if_neg hc]
            exact .inr (.inr (.inr (.inr ⟨q, rfl, hw.1, hw.2, hs, free hg, rfl⟩)))
    · rw [if_neg hw]
      exact .inl rfl

/-- A step is a reset cycle, or a tick, then the engine, then the request; the next inputs are taken off the list. -/
theorem step_cases {s t : State} (h : step s = .next t) :
    (s.nextInputs.rst = true ∧
      t = { s.takeInputs.resetCycle with out := s.takeInputs.outputs s.nextInputs }) ∨
    (s.nextInputs.rst = false ∧
      t = { s.takeInputs.requested s.nextInputs.tick s.nextInputs.req
              (s.takeInputs.afterTick s.nextInputs.tick).advanced with
            out := s.takeInputs.outputs s.nextInputs }) := by
  rw [step_eq] at h
  cases h
  cases hr : s.nextInputs.rst with
  | true => exact .inl ⟨rfl, cycled_of_reset _ hr⟩
  | false => exact .inr ⟨rfl, cycled_of_run _ hr⟩

end Sys2Proof.Machine
end

