-- ==== Sys2Proof/Laws/Commands.lean ====
section
/-! SUPPORT. What the shared operations of the commands and of the bus can do. -/

namespace Sys2Proof.Machine

/-! ### Acceptance checks -/

@[simp] theorem causeUnless_true (c : Cause) : causeUnless true c = none := rfl

@[simp] theorem causeUnless_false (c : Cause) : causeUnless false c = some c := rfl

theorem causeUnless_eq_none {ok : Bool} {c : Cause} (h : causeUnless ok c = none) : ok = true := by
  cases ok <;> simp_all

theorem Cause.code_ne_zero (c : Cause) : c.code ≠ 0 := by cases c <;> decide

/-- The acceptance checks read `RXLEN`, `TXLEN`, `TLOAD` and the buffers, nothing else
(70_reset_and_hazards.md R251). -/
theorem firstCause_congr {s t : State} (i : Instr) (hr : t.rxlen = s.rxlen) (ht : t.txlen = s.txlen)
    (hl : t.tload = s.tload) (hm : t.mem = s.mem) (hb : t.bufHist = s.bufHist) :
    t.firstCause i = s.firstCause i := by
  have bytes : ∀ n, t.bytes .txf n = s.bytes .txf n := fun n =>
    State.bytes_congr _ _ fun k _ => State.readByte_congr _ (by rw [hm]) hb
  cases i <;>
    simp [State.firstCause, checkCause, injectCause, txlenCause, tmrArmCause, bytes, hr, ht, hl]

/-! ### Memory -/

/-- A sequence write stays inside its buffer. -/
theorem Memory.read_setBytes_outside (m : Memory) (b : Buf) (k : Nat) (vs : List Byte) (a : Nat)
    (h : ¬ (b.base ≤ a ∧ a < b.base + 32)) : (m.setBytes b k vs).read a = m.read a := by
  induction vs generalizing m k with
  | nil => rfl
  | cons v vs ih =>
    rw [Memory.setBytes, ih, Memory.read_setBuf, if_neg (by omega)]

/-- `TXF[k]` after a frame is built is the frame's byte `k` (41_framing.md R147). -/
theorem State.putFrame_buf (s : State) (frame : List Byte) (k : Nat) (hk : k < frame.length)
    (h : frame.length ≤ 32) : (s.putFrame frame).buf .txf k = frame.getD k 0 := by
  have := Memory.read_setBytes s.mem .txf 0 k frame hk (by omega)
  rw [Nat.zero_add] at this
  show ((s.mem.setBytes .txf 0 frame).read (Buf.txf.base + k)).getD _ = _
  rw [this]
  rfl

/-- Building a frame leaves every other byte (41_framing.md R147). -/
theorem State.putFrame_readByte (s : State) (frame : List Byte) (a : Nat)
    (h : ¬ (0x60 ≤ a ∧ a < 0x60 + frame.length)) : (s.putFrame frame).readByte a = s.readByte a :=
  State.readByte_congr a (Memory.read_setBytes_other _ _ _ _ _ (by simpa [Buf.base] using h)) rfl

/-- A completion changes memory in `TXF` (the framing commands and INJECT) or in `RXF` (LOOPBACK) only. -/
theorem effectsOf_read (i : Instr) (s : State) (a : Nat) :
    (effectsOf i s).mem.read a = s.mem.read a ∨
    (i.opcode ∈ [0x4#4, 0x5#4, 0x6#4, 0x7#4, 0x9#4] ∧ 0x60 ≤ a ∧ a < 0x80) ∨
    (i.opcode = 0xA#4 ∧ 0x80 ≤ a ∧ a < 0xA0) := by
  have frame : ∀ f : List Byte, (s.putFrame f).mem.read a = s.mem.read a ∨ (0x60 ≤ a ∧ a < 0x80) := by
    intro f
    by_cases h : 0x60 ≤ a ∧ a < 0x80
    · exact .inr h
    · exact .inl (Memory.read_setBytes_outside s.mem .txf 0 f a (by simpa [Buf.base] using h))
  cases i
  case frameData | frameAck | frameSwtag | frameTeardown =>
    rcases frame _ with h | h
    · exact .inl h
    · exact .inr (.inl ⟨by simp [Instr.opcode], h⟩)
  case inject =>
    have h := Memory.read_setBuf s.mem .txf (s.txlen.toNat - 2)
      (s.buf .txf (s.txlen.toNat - 2) ^^^ Config.injMask) a
    by_cases ha : s.txlen.toNat - 2 < 32 ∧ a = Buf.txf.base + (s.txlen.toNat - 2)
    · exact .inr (.inl ⟨by simp [Instr.opcode], by simp only [Buf.base] at ha; omega⟩)
    · rw [if_neg ha] at h
      exact .inl h
  case loopback =>
    by_cases h : 0x80 ≤ a ∧ a < 0xA0
    · exact .inr (.inr ⟨rfl, h⟩)
    · exact .inl (Memory.read_setBytes_outside s.mem .rxf 0 s.txFrame a (by simpa [Buf.base] using h))
  all_goals exact .inl rfl

/-! ### The bus -/

/-- A request that passes the bus checks is aligned (20_memory.md R62). -/
theorem Request.aligned {q : Request} (h : q.busErr = false) : q.addr.extractLsb' 0 2 = 0 := by
  by_contra hne
  rw [Request.busErr, if_pos hne] at h
  cases h

/-- The buffer byte an aligned offset names (20_memory.md R61). -/
theorem Target.ofAddr_buf {a : BitVec 8} (ha : a.extractLsb' 0 2 = 0) {b : Buf} {j : Nat}
    (h : Target.ofAddr a = .buf b j) : a.toNat = b.base + j ∧ j + 4 ≤ 32 ∧ j % 4 = 0 := by
  have all : ∀ a : BitVec 8, a.extractLsb' 0 2 = 0 →
      (match Target.ofAddr a with
        | .buf b j => decide (a.toNat = b.base + j ∧ j + 4 ≤ 32 ∧ j % 4 = 0)
        | _ => true) = true := by decide +kernel
  have := all a ha
  rw [h] at this
  simpa using this

@[simp] theorem State.writeTarget_pend (s : State) (c e : Bool) (t : Target) (w : Word) (strb : BitVec 4) :
    (s.writeTarget c e t w strb).pend = s.pend := by
  unfold State.writeTarget
  split <;> rfl

@[simp] theorem State.writeTarget_bufHist (s : State) (c e : Bool) (t : Target) (w : Word)
    (strb : BitVec 4) : (s.writeTarget c e t w strb).bufHist = s.bufHist := by
  unfold State.writeTarget
  split <;> rfl

/-- A write to a target that is not busy-gated changes no operand of a command and no buffer
(70_reset_and_hazards.md R255). -/
theorem State.writeTarget_ungated (s : State) (c e : Bool) {t : Target} (w : Word) (strb : BitVec 4)
    (h : t.gated = false) :
    (s.writeTarget c e t w strb).mem = s.mem ∧ (s.writeTarget c e t w strb).rxlen = s.rxlen ∧
    (s.writeTarget c e t w strb).tload = s.tload ∧
    (s.writeTarget c e t w strb).status.rxValid = s.status.rxValid := by
  unfold State.writeTarget
  split <;> first | exact ⟨rfl, rfl, rfl, rfl⟩ | cases h

@[simp] theorem State.overrun_pend (s : State) (t : Target) (w : Word) :
    (s.overrun t w).pend = s.pend := by
  unfold State.overrun
  split <;> rfl

end Sys2Proof.Machine
end

