-- ==== Sys2Proof/Laws/Words.lean ====
section
/-! SUPPORT. Bit fields of a word that is written as a concatenation of its fields (30_encoding.md R91). -/

namespace Sys2Proof.Laws

/-- The low field of a concatenation. -/
theorem extractLsb'_append_low {n m : Nat} (hi : BitVec n) (lo : BitVec m) :
    (hi ++ lo).extractLsb' 0 m = lo := by
  ext k hk
  simp [BitVec.getLsbD_append, hk, BitVec.getLsbD_eq_getElem]

/-- A field above the low part of a concatenation is a field of the high part. -/
theorem extractLsb'_append_high {n m : Nat} (hi : BitVec n) (lo : BitVec m) (k len j : Nat)
    (h : j = m + k) : (hi ++ lo).extractLsb' j len = hi.extractLsb' k len := by
  subst h
  ext i hi
  have : ¬ m + k + i < m := by omega
  simp only [BitVec.getElem_extractLsb', BitVec.getLsbD_append, this, if_false]
  congr 1
  omega

/-- A bit above the low part of a concatenation is a bit of the high part. -/
theorem getLsbD_append_high {n m : Nat} (hi : BitVec n) (lo : BitVec m) (k j : Nat) (h : j = m + k) :
    (hi ++ lo).getLsbD j = hi.getLsbD k := by
  subst h
  have : ¬ m + k < m := by omega
  simp [BitVec.getLsbD_append, this]

/-- `&&&` works field by field. -/
theorem and_append {n m : Nat} (a c : BitVec n) (b d : BitVec m) :
    (a ++ b) &&& (c ++ d) = (a &&& c) ++ (b &&& d) := by
  ext k hk
  simp [BitVec.getElem_append]

/-- A word whose masked bits are 0 decodes, and only such a word (30_encoding.md R93, R94). -/
theorem withZeros_eq_ok {w zeros : Word} {i j : Instr} :
    withZeros w zeros i = .ok j ↔ w &&& zeros = 0 ∧ i = j := by
  unfold withZeros
  split
  · simp_all
  · simp_all

end Sys2Proof.Laws
end

