-- ==== Sys2Proof/Laws/PerInstr.lean ====
section
/-! SUPPORT. Statements made of every command, one lemma per constructor of Instr. -/

namespace Sys2Proof.Laws

/-- The low four bits of a command's word are its opcode (30_encoding.md R91, R93). -/
def OpField.Statement (i : Instr) : Prop :=
  Word.opField (encode i) = i.opcode

theorem opField_append {n : Nat} (hi : BitVec n) (op : BitVec 4) :
    (hi ++ op).extractLsb' 0 4 = op :=
  extractLsb'_append_low hi op

theorem opField_assemble (op sub : BitVec 4) (seq len data : Byte) :
    Word.opField (assemble op sub seq len data) = op :=
  opField_append _ _

theorem OpField.nop : OpField.Statement .nop := opField_assemble _ _ _ _ _
theorem OpField.crcClr : OpField.Statement .crcClr := opField_assemble _ _ _ _ _
theorem OpField.crcByte (data : Byte) : OpField.Statement (.crcByte data) := opField_assemble _ _ _ _ _
theorem OpField.crcPld (len : Byte) : OpField.Statement (.crcPld len) := opField_assemble _ _ _ _ _
theorem OpField.frameData (hasSeq : Bool) (seq len : Byte) :
    OpField.Statement (.frameData hasSeq seq len) := opField_assemble _ _ _ _ _
theorem OpField.frameAck (kind : Kind) (seq : Byte) :
    OpField.Statement (.frameAck kind seq) := opField_assemble _ _ _ _ _
theorem OpField.frameSwtag (kind : Kind) (hasSeq : Bool) (seq : Byte) :
    OpField.Statement (.frameSwtag kind hasSeq seq) := opField_assemble _ _ _ _ _
theorem OpField.frameTeardown : OpField.Statement .frameTeardown := opField_assemble _ _ _ _ _
theorem OpField.check (hasSeq : Bool) : OpField.Statement (.check hasSeq) := opField_assemble _ _ _ _ _
theorem OpField.inject : OpField.Statement .inject := opField_assemble _ _ _ _ _
theorem OpField.loopback : OpField.Statement .loopback := opField_assemble _ _ _ _ _
theorem OpField.tmrArm : OpField.Statement .tmrArm := opField_assemble _ _ _ _ _
theorem OpField.tmrDisarm : OpField.Statement .tmrDisarm := opField_assemble _ _ _ _ _
theorem OpField.retryClr : OpField.Statement .retryClr := opField_assemble _ _ _ _ _
theorem OpField.reservedE (rest : BitVec 28) : OpField.Statement (.reservedE rest) := opField_append _ _
theorem OpField.reservedF (rest : BitVec 28) : OpField.Statement (.reservedF rest) := opField_append _ _

end Sys2Proof.Laws
end

