-- ==== Sys2Proof/Laws/Run.lean ====
section
/-! SUPPORT. Runs of several steps. -/

namespace Sys2Proof.Machine

@[simp] theorem run_zero (s : State) : Host.Core.run Sys2Proof.core 0 s = .next s := rfl

/-- A run of `k + 1` steps is one step and a run of `k`. -/
theorem run_succ (k : Nat) {s t : State} (h : step s = .next t) :
    Host.Core.run Sys2Proof.core (k + 1) s = Host.Core.run Sys2Proof.core k t := by
  simp [Host.Core.run, show Sys2Proof.core.step s = .next t from h]

/-- A run of `j + k` steps is a run of `j` and then a run of `k`. -/
theorem run_add {j : Nat} (k : Nat) {s t : State} (h : Host.Core.run Sys2Proof.core j s = .next t) :
    Host.Core.run Sys2Proof.core (j + k) s = Host.Core.run Sys2Proof.core k t := by
  induction j generalizing s with
  | zero =>
    have : s = t := by injection h
    rw [this, Nat.zero_add]
  | succ j ih =>
    have hs := step_eq s
    rw [run_succ j hs] at h
    rw [Nat.add_right_comm, run_succ (j + k) hs, ih h]

/-- One more step at the end of a run. -/
theorem run_snoc {k : Nat} {s t u : State} (h : Host.Core.run Sys2Proof.core k s = .next t)
    (hs : step t = .next u) : Host.Core.run Sys2Proof.core (k + 1) s = .next u := by
  rw [run_add 1 h, run_succ 0 hs, run_zero]

end Sys2Proof.Machine
end

