-- ==== Sys2Proof/Tests/Slice0.lean ====
section
/-! SUPPORT. Tests. Expected values are those of 95_test_vectors.md (the section is named at each group) or of the rule
cited; none is the model's own answer. The second half holds, for every statement with hypotheses, a witness that
meets them, at the boundary values of each clause. -/

namespace Sys2Proof.Tests

/-! One theorem after the other: checked side by side, the kernel evaluations below wait for one another in a thread
each, and their stacks alone pass the memory limit of the check. -/
set_option Elab.async false

open Sys2Proof Sys2Proof.Machine Sys2Proof.Claims

/-- A state in which the command is pending and completes in this cycle. -/
def due (i : Instr) (s : State) : State :=
  { s with pend := some ⟨encode i, 1⟩ }

/-- What an observation reads in the state a result goes on with. -/
def after {α : Type} (f : State → α) : Result → Option α
  | .next s => some (f s)
  | .fault _ => none
  | .refused _ => none

/-- The state after a command's completion from a state. -/
def completes (i : Instr) (s : State) : Result :=
  exec i (due i s)

/-- `ERR` and `STATUS` as the bus reads them. -/
def errAndStatus (s : State) : Word × Word :=
  (s.readWord .err, s.statusWord)

/-- A state with a frame in `TXF`. -/
def withTx (frame : List Byte) : State :=
  State.reset.putFrame frame

/-- A state with a frame in `RXF`. -/
def withRx (frame : List Byte) : State :=
  { State.reset.putBytes .rxf frame with rxlen := BitVec.ofNat 8 frame.length }

/-- A state with bytes in `PLD`. -/
def withPld (bytes : List Byte) : State :=
  State.reset.putBytes .pld bytes

/-- The frame in `TXF` and `TXLEN`. -/
def tx (s : State) : List Byte × Byte :=
  (s.txFrame, s.txlen)

/-- `STATUS` and `RXINFO` as the bus reads them. -/
def statusAndInfo (s : State) : Word × Word :=
  (s.statusWord, s.readWord .rxinfo)

/-! ### Well-formedness: each check refuses an ill-formed term, and its boundary is well formed -/

theorem test_wellFormed_refuses_len : (Instr.crcPld 33).wellFormed = false ∧
    (Instr.frameData false 0 0).wellFormed = false ∧ (Instr.frameData false 0 32).wellFormed = false ∧
    (Instr.frameData true 0 31).wellFormed = false := by decide

theorem test_wellFormed_refuses_seq : (Instr.frameData false 1 1).wellFormed = false ∧
    (Instr.frameSwtag .ack false 1).wellFormed = false ∧
    (Instr.frameSwtag .nak true 2).wellFormed = false := by decide

theorem test_wellFormed_refuses_reserved : (Instr.reservedE 0).wellFormed = false ∧
    (Instr.reservedF 0).wellFormed = false := by decide

theorem test_wellFormed_boundary : (Instr.crcPld 32).wellFormed = true ∧
    (Instr.frameData false 0 31).wellFormed = true ∧ (Instr.frameData true 255 30).wellFormed = true ∧
    (Instr.frameSwtag .nak true 1).wellFormed = true ∧ (Instr.frameAck .ack 255).wellFormed = true := by
  decide

/-! ### Decoding: the words of 95_test_vectors.md section 2.1, written out there -/

theorem test_decode_control : decode 0x00000000 = .ok .nop ∧ decode 0x0000000B = .ok .tmrArm ∧
    decode 0x0000000C = .ok .tmrDisarm ∧ decode 0x0000000D = .ok .retryClr := by decide

theorem test_decode_crc : decode 0x00000001 = .ok .crcClr ∧ decode 0x41000002 = .ok (.crcByte 0x41) ∧
    decode 0x7F000002 = .ok (.crcByte 0x7F) ∧ decode 0x00050003 = .ok (.crcPld 5) ∧
    decode 0x00200003 = .ok (.crcPld 32) := by decide

theorem test_decode_frame_data : decode 0x00020004 = .ok (.frameData false 0 2) ∧
    decode 0x001F0004 = .ok (.frameData false 0 31) ∧ decode 0x00010114 = .ok (.frameData true 1 1) ∧
    decode 0x001E0114 = .ok (.frameData true 1 30) := by decide

theorem test_decode_frame_ack : decode 0x00000205 = .ok (.frameAck .ack 2) ∧
    decode 0x00000215 = .ok (.frameAck .nak 2) ∧ decode 0x0000FF05 = .ok (.frameAck .ack 0xFF) := by
  decide

theorem test_decode_frame_swtag : decode 0x00000006 = .ok (.frameSwtag .ack false 0) ∧
    decode 0x00000016 = .ok (.frameSwtag .nak false 0) ∧
    decode 0x00000126 = .ok (.frameSwtag .ack true 1) ∧
    decode 0x00000136 = .ok (.frameSwtag .nak true 1) ∧ decode 0x00000007 = .ok .frameTeardown := by
  decide

theorem test_decode_check : decode 0x00000008 = .ok (.check false) ∧
    decode 0x00000018 = .ok (.check true) ∧ decode 0x00000009 = .ok .inject ∧
    decode 0x0000000A = .ok .loopback := by decide

theorem test_decode_reserved_ops : decode 0x0000000E = .ok (.reservedE 0) ∧
    decode 0xFFFFFFFF = .ok (.reservedF 0xFFFFFFF) := by decide

theorem test_decode_reserved_fields : decode 0x00000010 = .error (.reservedField 0x0) ∧
    decode 0x01000001 = .error (.reservedField 0x1) ∧ decode 0x41000102 = .error (.reservedField 0x2) ∧
    decode 0x01210003 = .error (.reservedField 0x3) ∧ decode 0x00000025 = .error (.reservedField 0x5) ∧
    decode 0x00000046 = .error (.reservedField 0x6) ∧ decode 0x00000108 = .error (.reservedField 0x8) ∧
    decode 0x0000001C = .error (.reservedField 0xC) := by decide

theorem test_decodeTableWord : decodeTableWord 32 0x41000002 = some (.crcByte 0x41) ∧
    decodeTableWord 32 0x00000010 = none ∧ decodeTableWord 32 0xFFFFFFF1 = none := by decide

/-! ### The table of 40_crc.md R120 -/

/-- Rows 0x to 7x. -/
theorem test_table_low : (List.range 128).map (fun d => (crcTable (BitVec.ofNat 8 d)).toNat) =
    [0x00, 0x07, 0x0E, 0x09, 0x1C, 0x1B, 0x12, 0x15, 0x38, 0x3F, 0x36, 0x31, 0x24, 0x23, 0x2A, 0x2D] ++
    [0x70, 0x77, 0x7E, 0x79, 0x6C, 0x6B, 0x62, 0x65, 0x48, 0x4F, 0x46, 0x41, 0x54, 0x53, 0x5A, 0x5D] ++
    [0xE0, 0xE7, 0xEE, 0xE9, 0xFC, 0xFB, 0xF2, 0xF5, 0xD8, 0xDF, 0xD6, 0xD1, 0xC4, 0xC3, 0xCA, 0xCD] ++
    [0x90, 0x97, 0x9E, 0x99, 0x8C, 0x8B, 0x82, 0x85, 0xA8, 0xAF, 0xA6, 0xA1, 0xB4, 0xB3, 0xBA, 0xBD] ++
    [0xC7, 0xC0, 0xC9, 0xCE, 0xDB, 0xDC, 0xD5, 0xD2, 0xFF, 0xF8, 0xF1, 0xF6, 0xE3, 0xE4, 0xED, 0xEA] ++
    [0xB7, 0xB0, 0xB9, 0xBE, 0xAB, 0xAC, 0xA5, 0xA2, 0x8F, 0x88, 0x81, 0x86, 0x93, 0x94, 0x9D, 0x9A] ++
    [0x27, 0x20, 0x29, 0x2E, 0x3B, 0x3C, 0x35, 0x32, 0x1F, 0x18, 0x11, 0x16, 0x03, 0x04, 0x0D, 0x0A] ++
    [0x57, 0x50, 0x59, 0x5E, 0x4B, 0x4C, 0x45, 0x42, 0x6F, 0x68, 0x61, 0x66, 0x73, 0x74, 0x7D, 0x7A] := by
  decide +kernel

/-- Rows 8x to Fx. -/
theorem test_table_high : (List.range 128).map (fun d => (crcTable (BitVec.ofNat 8 (128 + d))).toNat) =
    [0x89, 0x8E, 0x87, 0x80, 0x95, 0x92, 0x9B, 0x9C, 0xB1, 0xB6, 0xBF, 0xB8, 0xAD, 0xAA, 0xA3, 0xA4] ++
    [0xF9, 0xFE, 0xF7, 0xF0, 0xE5, 0xE2, 0xEB, 0xEC, 0xC1, 0xC6, 0xCF, 0xC8, 0xDD, 0xDA, 0xD3, 0xD4] ++
    [0x69, 0x6E, 0x67, 0x60, 0x75, 0x72, 0x7B, 0x7C, 0x51, 0x56, 0x5F, 0x58, 0x4D, 0x4A, 0x43, 0x44] ++
    [0x19, 0x1E, 0x17, 0x10, 0x05, 0x02, 0x0B, 0x0C, 0x21, 0x26, 0x2F, 0x28, 0x3D, 0x3A, 0x33, 0x34] ++
    [0x4E, 0x49, 0x40, 0x47, 0x52, 0x55, 0x5C, 0x5B, 0x76, 0x71, 0x78, 0x7F, 0x6A, 0x6D, 0x64, 0x63] ++
    [0x3E, 0x39, 0x30, 0x37, 0x22, 0x25, 0x2C, 0x2B, 0x06, 0x01, 0x08, 0x0F, 0x1A, 0x1D, 0x14, 0x13] ++
    [0xAE, 0xA9, 0xA0, 0xA7, 0xB2, 0xB5, 0xBC, 0xBB, 0x96, 0x91, 0x98, 0x9F, 0x8A, 0x8D, 0x84, 0x83] ++
    [0xDE, 0xD9, 0xD0, 0xD7, 0xC2, 0xC5, 0xCC, 0xCB, 0xE6, 0xE1, 0xE8, 0xEF, 0xFA, 0xFD, 0xF4, 0xF3] := by
  decide +kernel

/-- The check value (40_crc.md R123). -/
theorem test_check_value :
    crc8 [0x31, 0x32, 0x33, 0x34, 0x35, 0x36, 0x37, 0x38, 0x39] = 0xF4 := by decide +kernel

/-! ### Completions (95_test_vectors.md sections 2.2 to 2.6) -/

theorem test_nop : after State.statusWord (completes .nop State.reset) = some 0x00000002 := by
  decide +kernel

theorem test_crcClr :
    after State.crcRem (completes .crcClr (State.reset.setRem 0x7F)) = some 0x00 := by decide +kernel

theorem test_crcByte :
    after State.crcRem (completes (.crcByte 0x43) (State.reset.setRem 0xC0)) = some 0x80 := by
  decide +kernel

theorem test_crcByte_from_nonzero :
    after State.crcRem (completes (.crcByte 0x41) (State.reset.setRem 0x12)) = some 0xBE := by
  decide +kernel

theorem test_crcPld :
    after State.crcRem (completes (.crcPld 5) (withPld [0x48, 0x65, 0x6C, 0x6C, 0x6F])) = some 0xF6 := by
  decide +kernel

theorem test_crcPld_zero :
    after State.crcRem (completes (.crcPld 0) (State.reset.setRem 0x5A)) = some 0x5A := by decide +kernel

theorem test_frameData :
    after tx (completes (.frameData false 0 2) (withPld [0x48, 0x69])) = some ([0x48, 0x69, 0xEB], 3) := by
  decide +kernel

theorem test_frameData_seq :
    after tx (completes (.frameData true 5 2) (withPld [0x48, 0x69])) =
      some ([0x05, 0x48, 0x69, 0x2B], 4) := by decide +kernel

theorem test_frameAck :
    after tx (completes (.frameAck .ack 2) State.reset) = some ([0x02, 0x41, 0x43, 0x4B, 0x53], 5) := by
  decide +kernel

theorem test_frameAck_nak :
    after tx (completes (.frameAck .nak 2) State.reset) = some ([0x02, 0x4E, 0x41, 0x4B, 0x3E], 5) := by
  decide +kernel

theorem test_frameSwtag :
    after tx (completes (.frameSwtag .nak true 1) State.reset) =
      some ([0x01, 0x4E, 0x41, 0x4B, 0x12], 5) := by decide +kernel

theorem test_frameSwtag_ack :
    after tx (completes (.frameSwtag .ack true 1) State.reset) =
      some ([0x01, 0x41, 0x43, 0x4B, 0x69], 5) := by decide +kernel

theorem test_frameTeardown :
    after tx (completes .frameTeardown State.reset) = some ([0x00, 0x30, 0x30, 0x90], 4) := by
  decide +kernel

/-- A shorter frame leaves the bytes above it (section 2.3, "Other corner cases"). -/
theorem test_frameTeardown_keeps :
    after (fun s => s.buf .txf 4) (completes .frameTeardown (withTx [1, 2, 3, 4, 5])) = some 5 := by
  decide +kernel

theorem test_check :
    after statusAndInfo (completes (.check true) (withRx [0x01, 0x78, 0x7A])) =
      some (0x00000182, 0x00010101) := by decide +kernel

theorem test_check_teardown :
    after statusAndInfo (completes (.check false) (withRx [0x00, 0x30, 0x30, 0x90])) =
      some (0x00000282, 0x00000000) := by decide +kernel

theorem test_inject :
    after tx (completes .inject (withTx [0x01, 0x78, 0x7A])) = some ([0x01, 0x7A, 0x7A], 3) := by
  decide +kernel

theorem test_inject_two_bytes :
    after tx (completes .inject (withTx [0x78, 0x6F])) = some ([0x7A, 0x6F], 2) := by decide +kernel

theorem test_loopback :
    after (fun s => (s.rxFrame, s.rxlen, s.status.rxValid)) (completes .loopback
      { withTx [0x01, 0x78, 0x7A] with status := { State.reset.status with rxValid := true } }) =
      some ([0x01, 0x78, 0x7A], 3, false) := by decide +kernel

theorem test_tmrArm :
    after (fun s => (s.tcnt, s.statusWord)) (completes .tmrArm { State.reset with tload := 3 }) =
      some (3, 0x00000042) := by decide +kernel

theorem test_tmrDisarm :
    after (fun s => (s.tcnt, s.status.armed)) (completes .tmrDisarm
      { State.reset with tcnt := 5, status := { State.reset.status with armed := true } }) =
      some (5, false) := by decide +kernel

theorem test_retryClr :
    after State.retry (completes .retryClr { State.reset with retry := ⟨5, 9⟩ }) = some ⟨0, 9⟩ := by
  decide +kernel

/-! ### Errors (section 2.7): `ERR` and `STATUS` after one word from reset -/

theorem test_error_vectors :
    [0x0000000E, 0xFFFFFFFF, 0x00000010, 0x01000001, 0x41000102, 0x00210003, 0x01210003, 0x00000004,
        0x001F0014, 0x00010104, 0x00010005].map
      (fun w => after errAndStatus (presentWord w State.reset)) =
    [0xE1, 0xF1, 0x02, 0x12, 0x22, 0x33, 0x32, 0x43, 0x43, 0x42, 0x52].map
      (fun e => some (e, 0x00000006)) := by decide +kernel

theorem test_error_vectors_more :
    [0x00000025, 0x00000226, 0x00000106, 0x00010226, 0x00000046, 0x00000008, 0x00000108, 0x00000009,
        0x0000000A, 0x0000000B, 0x0000001C].map
      (fun w => after errAndStatus (presentWord w State.reset)) =
    [0x52, 0x64, 0x62, 0x62, 0x62, 0x83, 0x82, 0x93, 0xA3, 0xB6, 0xC2].map
      (fun e => some (e, 0x00000006)) := by decide +kernel

theorem test_inject_refuses_teardown :
    after errAndStatus (exec .inject (withTx [0x00, 0x30, 0x30, 0x90])) = some (0x95, 0x00000006) := by
  decide +kernel

/-- First-error capture: the second error is not captured. -/
theorem test_first_error :
    after errAndStatus (andThen (presentWord 0x0000000E State.reset) (presentWord 0x00000004)) =
      some (0xE1, 0x00000006) := by decide +kernel

/-- A `CMD` write while busy (program P7: `ERR` 0x17), and a `TLOAD` write while busy. -/
theorem test_overruns :
    after (fun s => (s.readWord .err, s.status.errOvr)) (cycleWith (cmdWrite 0x00000001)
      { due (.crcPld 5) State.reset with pend := some ⟨0x00050003, 2⟩ }) = some (0x17, true) ∧
    after (fun s => (s.readWord .err, s.tload)) (cycleWith ⟨false, false, some ⟨true, 0x24, 7, 0xF⟩⟩
      (due .nop State.reset)) = some (0x08, 0) := by decide +kernel

/-! ### The bus (section 2.8) -/

theorem test_reads :
    State.reset.respond (some ⟨false, 0x00, 0, 0⟩) = ⟨0x43524338, false⟩ ∧
    State.reset.respond (some ⟨false, 0x02, 0, 0⟩) = ⟨0, true⟩ ∧
    State.reset.respond (some ⟨false, 0x34, 0, 0⟩) = ⟨0, true⟩ ∧
    State.reset.respond (some ⟨false, 0xFC, 0, 0⟩) = ⟨0, true⟩ ∧
    State.reset.respond (some ⟨true, 0x60, 1, 0xF⟩) = ⟨0, true⟩ ∧
    State.reset.respond (some ⟨true, 0x04, 0xF, 0x3⟩) = ⟨0, true⟩ ∧
    State.reset.respond (some ⟨false, 0x08, 0, 0⟩) = ⟨0, false⟩ := by decide +kernel

theorem test_buffer_write :
    after (fun s => s.respond (some ⟨false, 0x40, 0, 0⟩)) (andThen
      (cycleWith ⟨false, false, some ⟨true, 0x40, 0x44434241, 0xF⟩⟩ State.reset)
      (cycleWith ⟨false, false, some ⟨true, 0x40, 0xAABBCCDD, 0x4⟩⟩)) =
      some ⟨0x44BB4241, false⟩ := by decide +kernel

theorem test_register_writes :
    after (fun s => s.readWord .ctrl)
      (cycleWith ⟨false, false, some ⟨true, 0x04, 0xFFFFFFFF, 0xF⟩⟩ State.reset) = some 0xF ∧
    after (fun s => s.readWord .table)
      (cycleWith ⟨false, false, some ⟨true, 0x20, 0xFFFFFF7F, 0xF⟩⟩ State.reset) = some 0x00007A7F ∧
    after (fun s => s.readWord .rxlen)
      (cycleWith ⟨false, false, some ⟨true, 0x18, 0x000001FF, 0xF⟩⟩ State.reset) = some 0x000000FF ∧
    after (fun s => s.readWord .retry)
      (cycleWith ⟨false, false, some ⟨true, 0x2C, 0x0005FFFF, 0xF⟩⟩ State.reset) = some 0x00050000 := by
  decide +kernel

/-- W1C: after an ILLEGAL, writing all ones to `STATUS` leaves 0. -/
theorem test_w1c :
    after State.statusWord (andThen (presentWord 0x0000000E State.reset)
      (cycleWith ⟨false, false, some ⟨true, 0x0C, 0xFFFFFFFF, 0xF⟩⟩)) = some 0 := by decide +kernel

/-! ### The timer (section 2.6) and the interrupt (section 2.9) -/

theorem test_tick_expires :
    after (fun s => (s.tcnt, s.statusWord)) (cycleWith tickOnly
      { State.reset with
        tcnt := 1, retry := ⟨0, 1⟩, status := { State.reset.status with armed := true, done := true } }) =
      some (0, 0x00000032) := by decide +kernel

theorem test_tick_saturates :
    after State.retry (cycleWith tickOnly
      { State.reset with
        tcnt := 1, retry := ⟨0xFFFF, 0⟩, status := { State.reset.status with armed := true } }) =
      some ⟨0xFFFF, 0⟩ := by decide +kernel

theorem test_irq :
    State.reset.irq = false ∧
    after State.irq (completes .nop { State.reset with ctrl := ⟨true, false, false, false⟩ }) = some true ∧
    after State.irq (completes .nop State.reset) = some false ∧
    after State.irq (presentWord 0x0000000F { State.reset with ctrl := ⟨false, true, false, false⟩ }) =
      some true := by decide +kernel

/-! ### The host's entry: the very next step runs the word -/

theorem test_withFetchWord_rejects :
    after errAndStatus (step (State.reset.withFetchWord 32 0x0000000E)) = some (0xE1, 0x00000006) := by
  decide +kernel

theorem test_withFetchWord_accepts :
    after (fun s => (s.busy, s.pend.map Pending.word)) (step (State.reset.withFetchWord 32 0x41000002)) =
      some (true, some 0x41000002) := by decide +kernel

/-! ### Witnesses: for each statement with hypotheses, states and operands that meet them all -/

/-- A waiting command: `k` cycles left. -/
def waiting (i : Instr) (k : Nat) (xs : List Inputs) : State :=
  { State.reset with pend := some ⟨encode i, k⟩, inputs := xs }

/-- An armed timer. -/
def armedAt (n : Word) (xs : List Inputs) : State :=
  { State.reset with tcnt := n, inputs := xs, status := { State.reset.status with armed := true } }

/-- One request and nothing else. -/
def asks (write : Bool) (addr : BitVec 8) (wdata : Word) (strb : BitVec 4) : Inputs :=
  ⟨false, false, some ⟨write, addr, wdata, strb⟩⟩

theorem witness_EncodeInvertsDecode : decode 0x00000126 = .ok (.frameSwtag .ack true 1) := by decide

theorem witness_StepIsOneCycle :
    ({ State.reset with inputs := [tickOnly] } : State).inputs = tickOnly :: [] := rfl

theorem witness_StepRunsWrittenCommand :
    (State.reset.withCommand 0x41000002).inputs = cmdWrite 0x41000002 :: [] ∧
    Requests (cmdWrite 0x41000002) ⟨true, 0x08, 0x41000002, 0xF⟩ ∧
    (State.reset.withCommand 0x41000002).pend = none ∧
    decode 0x41000002 = .ok (.crcByte 0x41) := ⟨rfl, ⟨rfl, rfl⟩, rfl, by decide⟩

theorem witness_StepRunsPendingCommand :
    (waiting (.crcByte 0x41) 1 [tickOnly]).inputs = tickOnly :: [] ∧ tickOnly.rst = false ∧
    (waiting (.crcByte 0x41) 1 [tickOnly]).pend = some ⟨encode (.crcByte 0x41), 1⟩ ∧
    decode (encode (.crcByte 0x41)) = .ok (.crcByte 0x41) := ⟨rfl, rfl, rfl, by decide⟩

theorem witness_FetchWordRunsNext : decodeTableWord 32 0x00200003 = some (.crcPld 32) := by decide

/-- The clauses on equal lengths, one nonzero byte, and a frame that folds to 0. -/
theorem witness_SingleByteErrorsDetected :
    ([0x41, 0x43] : List Byte).length = ([0x00, 0x02] : List Byte).length ∧ (0x02 : Byte) ≠ 0 ∧
    crc8 ([0x41, 0x43] ++ 0x4B :: [0x7F]) = 0 ∧ crc8 ([] ++ 0x00 :: []) = 0 := by decide +kernel

/-- Idle states and due commands: the two phases in which each command's statement speaks of it. -/
theorem witness_phases : State.reset.pend = none ∧
    (due .nop State.reset).pend = some ⟨encode .nop, 1⟩ := ⟨rfl, rfl⟩

/-- A word with a nonzero reserved bit for every opcode's clause. -/
theorem witness_RejectsReserved :
    ([0x00000010#32, 0x80000000, 0x00000011, 0x00000017, 0x00000019, 0x0000001A, 0x0000001B,
        0x0000001C, 0x8000000D].all fun w => field w 4 28 != 0) = true ∧
    field 0x41000102 4 20 ≠ 0 ∧ field 0x00001003 4 12 ≠ 0 ∧ field 0x01000003 24 8 ≠ 0 ∧
    field 0x00000024 5 3 ≠ 0 ∧ (field 0x00010104 4 1 = 0 ∧ field 0x00010104 8 8 ≠ 0) ∧
    field 0x00000025 5 3 ≠ 0 ∧ field 0x00010005 16 8 ≠ 0 ∧ field 0x01000005 24 8 ≠ 0 ∧
    field 0x00000046 6 2 ≠ 0 ∧ (field 0x00000106 5 1 = 0 ∧ field 0x00000106 8 8 ≠ 0) ∧
    field 0x00000028 5 27 ≠ 0 ∧ field 0x00000108 5 27 ≠ 0 := by decide

theorem witness_CrcClrClearsRemainder :
    (due .crcClr State.reset).pend = some ⟨0x00000001, 1⟩ := by decide

theorem witness_CrcByteFoldsOneByte :
    (due (.crcByte 0xFF) State.reset).pend = some ⟨0xFF000002, 1⟩ := by decide

/-- `n` at 0, 32 and 33; an unwritten `PLD` byte. -/
theorem witness_CrcPldFoldsPayload :
    (due (.crcPld 32) State.reset).pend.isSome = true ∧ (0 : Byte).toNat ≤ 32 ∧ (32 : Byte).toNat ≤ 32 ∧
    32 < (33 : Byte).toNat ∧ State.reset.mem.read (0x40 + 31) = none := by decide

/-- `n` at 1 and 31 without, at 1 and 30 with a sequence byte; a payload that is an acknowledgment's text. -/
theorem witness_FrameDataBuildsDataFrame :
    (1 ≤ (1 : Byte).toNat ∧ (31 : Byte).toNat ≤ 31 - false.toNat ∧ (30 : Byte).toNat ≤ 31 - true.toNat) ∧
    (due (.frameData true 7 30) State.reset).pend.isSome = true ∧
    bufBytes (withPld [0x41, 0x43, 0x4B]) .pld 3 = text .ack ∧
    (∃ t u, exec (.frameData true 7 3) (due .nop (withPld [0x41, 0x43, 0x4B])) = .next t ∧
      exec (.frameAck .ack 7) (due .nop (withPld [0x41, 0x43, 0x4B])) = .next u) :=
  ⟨by decide, by decide, by decide +kernel, _, _, rfl, rfl⟩

theorem witness_FrameAckBuildsGenuineAck :
    (due (.frameAck .nak 0xFF) State.reset).pend = some ⟨0x0000FF15, 1⟩ := by decide

theorem witness_FrameSwtagBuildsTagFrame :
    (due (.frameSwtag .nak true 1) State.reset).pend = some ⟨0x00000136, 1⟩ := by decide

theorem witness_FrameTeardownBuildsSentinel :
    (due .frameTeardown State.reset).pend = some ⟨0x00000007, 1⟩ ∧
    (∃ t, exec .frameTeardown (due .frameTeardown State.reset) = .next t) := ⟨by decide, _, rfl⟩

/-- A rejected word of each framing opcode (the first three with a nonzero reserved field), an accepted one, and a decoded
command whose operand check fails. -/
theorem witness_RejectedFramingKeepsFrame :
    ((0x00010024#32).extractLsb' 0 4 ∈ [0x4#4, 0x5#4, 0x6#4, 0x7#4] ∧ causeOf State.reset 0x00010024 = 2) ∧
    ((0x00000025#32).extractLsb' 0 4 = 0x5 ∧ causeOf State.reset 0x00000025 = 2) ∧
    ((0x00000017#32).extractLsb' 0 4 = 0x7 ∧ causeOf State.reset 0x00000017 = 2) ∧
    ((0x00000226#32).extractLsb' 0 4 = 0x6 ∧ causeOf State.reset 0x00000226 = 4) ∧
    causeOf State.reset 0x00010004 = 0 ∧
    (Instr.frameData false 0 32).opcode ∈ [0x4#4, 0x5#4, 0x6#4, 0x7#4] ∧ State.reset.pend = none ∧
    State.reset.firstCause (.frameData false 0 32) ≠ none ∧
    (∃ t, exec (.frameData false 0 32) State.reset = .next t) := by
  refine ⟨by decide, by decide, by decide, by decide, by decide, by decide, rfl, by decide, _, rfl⟩

/-- `RXLEN` at 1, 2 and 32 for the completion, at 0, 1 and 33 for the refusal. -/
theorem witness_CheckDecodesReceivedFrame :
    1 + false.toNat ≤ (withRx [0x00]).rxlen.toNat ∧ 1 + true.toNat ≤ (withRx [0x05, 0x1B]).rxlen.toNat ∧
    (withRx (List.replicate 32 0)).rxlen.toNat ≤ 32 ∧
    (due (.check true) (withRx [0x05, 0x1B])).pend.isSome = true ∧
    State.reset.rxlen.toNat < 1 + false.toNat ∧ (withRx [0x00]).rxlen.toNat < 1 + true.toNat ∧
    32 < (33 : Byte).toNat := by decide +kernel

/-- `TXLEN` at 2 and 32. -/
theorem witness_InjectFlipsOneBit :
    (due .inject (withTx [0x78, 0x6F])).pend.isSome = true ∧ 2 ≤ (withTx [0x78, 0x6F]).txlen.toNat ∧
    (withTx (List.replicate 32 0)).txlen.toNat ≤ 32 ∧
    crc8 (bufBytes (withTx [0x78, 0x6F]) .txf 2) = 0 := by decide +kernel

theorem witness_LoopbackCopiesFrame :
    (due .loopback (withTx [0x78, 0x6F])).pend.isSome = true ∧ 2 ≤ (withTx [0x78, 0x6F]).txlen.toNat ∧
    (withTx (List.replicate 32 0)).txlen.toNat ≤ 32 := by decide +kernel

theorem witness_FramedDataPassesCheck :
    (due .nop State.reset).pend = some ⟨0, 1⟩ ∧ (true = true ∨ (7 : Byte) = 0) ∧
    1 ≤ (30 : Byte).toNat ∧ (30 : Byte).toNat ≤ 31 - true.toNat ∧ (false = true ∨ (0 : Byte) = 0) ∧
    (31 : Byte).toNat ≤ 31 - false.toNat := by decide

theorem witness_InjectedDataFailsCheck :
    (due .nop State.reset).pend = some ⟨0, 1⟩ ∧ (false = true ∨ (0 : Byte) = 0) ∧
    1 ≤ (1 : Byte).toNat ∧ (1 : Byte).toNat ≤ 31 - false.toNat := by decide

theorem witness_NopSetsDoneOnly :
    (waiting .nop 1 []).pend = some ⟨0x00000000, 1⟩ ∧
    Requests (cmdWrite 0x00000000) ⟨true, 0x08, 0x00000000, 0xF⟩ := ⟨by decide, rfl, rfl⟩

theorem witness_TimerCommandsComplete :
    (due .tmrArm { State.reset with tload := 1 }).pend = some ⟨0x0000000B, 1⟩ ∧
    State.reset.tload = 0 ∧ (0xD#4 ∈ [0xB#4, 0xC#4, 0xD#4]) := by decide

theorem witness_ReservedOpcodesRejected : State.reset.pend = none ∧ field 0x0000000E 0 4 = 0xE ∧
    field 0xFFFFFFFF 0 4 = 0xF := ⟨rfl, by decide, by decide⟩

/-- No completion, a completion of another command, and a tick that expires the timer. -/
theorem witness_TickCountsDown :
    tickOnly.rst = false ∧ (∃ t, cycleWith tickOnly (armedAt 1 []) = .next t) ∧
    ¬ CompletesOneOf (armedAt 1 []) [0xB] ∧ ¬ CompletesOneOf (armedAt 1 []) [0xB, 0xC] ∧
    ¬ CompletesOneOf (armedAt 1 []) [0xD] ∧ tickOnly.tick = true ∧
    (armedAt 1 []).status.armed = true ∧ (armedAt 1 []).tcnt.toNat ≤ 1 := by
  refine ⟨rfl, ⟨_, rfl⟩, ?_, ?_, ?_, rfl, rfl, by decide⟩ <;>
    (rintro ⟨p, i, h, -⟩; cases h)

/-- Three ticks expire a count of 3; the run of three steps exists and nothing completes in it. -/
theorem witness_TimerExpiresOnLastTick :
    (due .tmrArm { State.reset with tload := 3 }).pend.isSome = true ∧
    (armedAt 3 [tickOnly, idle, tickOnly]).status.armed = true ∧
    (armedAt 3 [tickOnly, idle, tickOnly]).tcnt ≠ 0 ∧
    3 ≤ (armedAt 3 [tickOnly, idle, tickOnly]).inputs.length ∧
    (∀ x ∈ (armedAt 3 [tickOnly, idle, tickOnly]).inputs.take 3, x.rst = false) ∧
    (∀ j u, j < 3 → RunsTo j (armedAt 3 [tickOnly, idle, tickOnly]) u →
      ¬ CompletesOneOf u [0xB, 0xC]) ∧
    (∃ t, RunsTo 3 (armedAt 3 [tickOnly, idle, tickOnly]) t) := by
  refine ⟨by decide, rfl, by decide, by decide, by decide, ?_, _, rfl⟩
  intro j u hj hu
  have : u.pend = none := by
    obtain rfl | rfl | rfl : j = 0 ∨ j = 1 ∨ j = 2 := by omega
    · have : armedAt 3 [tickOnly, idle, tickOnly] = u := by injection hu
      subst this
      rfl
    · have := Host.Outcome.next.inj hu
      subst this
      rfl
    · have := Host.Outcome.next.inj hu
      subst this
      rfl
  rintro ⟨p, i, h, -⟩
  rw [this] at h
  cases h

/-- A reset cycle; a completing RETRY_CLR; an expiry. -/
theorem witness_RetryCountOnlyByExpiry :
    (∃ t, step { State.reset with inputs := [⟨true, false, none⟩] } = .next t) ∧
    ({ State.reset with inputs := [⟨true, false, none⟩] } : State).nextInputs.rst = true ∧
    (waiting .retryClr 1 [idle]).nextInputs.rst = false ∧
    CompletesOneOf (waiting .retryClr 1 [idle]) [0xD] ∧
    ¬ CompletesOneOf (armedAt 1 [tickOnly]) [0xD] ∧ (armedAt 1 [tickOnly]).nextInputs.tick = true ∧
    (armedAt 1 [tickOnly]).tcnt.toNat ≤ 1 := by
  refine ⟨⟨_, rfl⟩, rfl, rfl, ⟨_, .retryClr, rfl, by decide, by decide, by decide⟩, ?_, rfl, by decide⟩
  rintro ⟨p, i, h, -⟩
  cases h

/-- The six rows of R260. -/
theorem witness_TimerMeetsCommand :
    (armedAt 1 []).status.armed = true ∧ (armedAt 1 []).tcnt = 1 ∧ 1 < (armedAt 5 []).tcnt.toNat ∧
    (∃ t, cycleWith ⟨false, true, some ⟨true, 0x0C, 0x10, 0xF⟩⟩ (armedAt 1 []) = .next t) ∧
    (∀ i ∈ [Instr.tmrArm, .tmrDisarm, .retryClr],
      (∃ t, cycleWith tickOnly (due i (armedAt 1 [])) = .next t) ∧
      (due i (armedAt 1 [])).pend = some ⟨encode i, 1⟩ ∧
      encode i ∈ [0x0000000B#32, 0x0000000C, 0x0000000D]) ∧
    (due .tmrArm State.reset).status.armed = false := by
  refine ⟨rfl, rfl, by decide, ⟨_, rfl⟩, ?_, rfl⟩
  intro i hi
  refine ⟨⟨_, cycleWith_eq _ _⟩, rfl, ?_⟩
  revert i
  decide

/-- A `CMD` write to an idle and to a busy block, and one with partial strobes. -/
theorem witness_AcceptanceTakesFirstCause :
    Requests (asks true 0x08 0x00000009 0xF) ⟨true, 0x08, 0x00000009, 0xF⟩ ∧
    Requests (asks true 0x08 0x00000009 0x7) ⟨true, 0x08, 0x00000009, 0x7⟩ ∧ (0x7 : BitVec 4) ≠ 0xF ∧
    (due .nop State.reset).pend ≠ none ∧ causeOf State.reset 0x00000009 = 3 ∧
    causeOf State.reset 0x00000000 = 0 := ⟨⟨rfl, rfl⟩, ⟨rfl, rfl⟩, by decide, by decide, by decide, by decide⟩

/-- The gated targets at the ends of their ranges. -/
theorem witness_BusyWritesOverrun :
    ∀ a ∈ [0x08#8, 0x18, 0x24, 0x40, 0x5C, 0x80, 0x9C],
      Requests (asks true a 7 0xF) ⟨true, a, 7, 0xF⟩ ∧ GoodWrite ⟨true, a, 7, 0xF⟩ ∧
      (due .nop State.reset).pend ≠ none ∧
      (a.toNat ∈ [0x08, 0x18, 0x24] ∨ (0x40 ≤ a.toNat ∧ a.toNat < 0x60) ∨
        (0x80 ≤ a.toNat ∧ a.toNat < 0xA0)) := by
  intro a ha
  refine ⟨⟨rfl, rfl⟩, ⟨rfl, ?_, fun _ => rfl⟩, by decide, ?_⟩ <;> revert a <;> decide

theorem witness_FirstErrorStays :
    let s : State := { State.reset with err := ⟨5, 9⟩, inputs := [asks true 0x30 0 0xF] }
    (∃ t, step s = .next t) ∧ s.nextInputs.rst = false ∧ s.err.cause ≠ 0 :=
  ⟨⟨_, rfl⟩, rfl, by decide⟩

/-- A count of 1 and of 32, with the inputs at hand; an idle block and a legal command. -/
theorem witness_PendingCommandCompletes :
    (∀ k ∈ [1, 32],
      (waiting .nop k (List.replicate 32 tickOnly)).pend = some ⟨encode .nop, k⟩ ∧ 1 ≤ k ∧
      k ≤ (waiting .nop k (List.replicate 32 tickOnly)).inputs.length ∧
      ∀ x ∈ (waiting .nop k (List.replicate 32 tickOnly)).inputs.take k, x.rst = false) ∧
    State.reset.pend = none ∧ State.reset.firstCause .nop = none := by decide

theorem witness_WrittenCommandTakesEffect :
    let xs := cmdWrite (encode .crcClr) :: (List.replicate (lat State.reset (encode .crcClr)) idle ++ [])
    let s : State := { State.reset with inputs := xs }
    s.pend = none ∧ s.firstCause .crcClr = none ∧
    s.inputs = cmdWrite (encode .crcClr) :: (List.replicate (lat s (encode .crcClr)) idle ++ []) :=
  ⟨rfl, rfl, rfl⟩

theorem witness_NothingShowsBeforeCompletion :
    (waiting (.crcByte 1) 2 [asks true 0x24 7 0xF]).pend = some ⟨encode (.crcByte 1), 2⟩ ∧
    (waiting (.crcByte 1) 2 [asks true 0x24 7 0xF]).nextInputs.rst = false ∧
    (∃ t, step (waiting (.crcByte 1) 2 [asks true 0x24 7 0xF]) = .next t) := ⟨rfl, rfl, _, rfl⟩

theorem witness_OnlyCrcCommandsWriteRem :
    (∃ t, step (waiting (.crcByte 0x41) 1 [idle]) = .next t ∧
      t.crcRem ≠ (waiting (.crcByte 0x41) 1 [idle]).crcRem) ∧
    Requests (asks true 0x10 1 0xF) ⟨true, 0x10, 1, 0xF⟩ := ⟨⟨_, rfl, by decide +kernel⟩, rfl, rfl⟩

theorem witness_OnlyFramingWritesTxlen :
    ∃ t, step (waiting .frameTeardown 1 [idle]) = .next t ∧
      t.txlen ≠ (waiting .frameTeardown 1 [idle]).txlen := ⟨_, rfl, by decide +kernel⟩

theorem witness_OnlyCheckWritesResults :
    ∃ t, step { due (.check false) (withRx [0x00]) with inputs := [idle] } = .next t ∧
      t.results ≠ (due (.check false) (withRx [0x00])).results := ⟨_, rfl, by decide +kernel⟩

/-- A changed byte of each buffer: `PLD[31]`, `TXF[0]`, `RXF[0]`. -/
theorem witness_BufferBytesHaveKnownWriters :
    (∃ t, step { withPld (List.replicate 32 0) with inputs := [asks true 0x5C 0xFF000000 0x8] } = .next t ∧
      t.buf .pld 31 ≠ (withPld (List.replicate 32 0)).buf .pld 31) ∧
    (∃ t, step { due .frameTeardown (withTx [0xFF, 0xFF]) with inputs := [idle] } = .next t ∧
      t.buf .txf 0 ≠ (withTx [0xFF, 0xFF]).buf .txf 0) ∧
    (∃ t, step { due .loopback ((withTx [1, 2]).putBytes .rxf [3, 4]) with inputs := [idle] } = .next t ∧
      t.buf .rxf 0 ≠ ((withTx [1, 2]).putBytes .rxf [3, 4]).buf .rxf 0) :=
  ⟨⟨_, rfl, by decide +kernel⟩, ⟨_, rfl, by decide +kernel⟩, ⟨_, rfl, by decide +kernel⟩⟩

theorem witness_MisalignedRequestsRaiseBuserr :
    Requests (asks false 0x01 0 0) ⟨false, 0x01, 0, 0⟩ ∧ (0x01 : BitVec 8).extractLsb' 0 2 ≠ 0 :=
  ⟨⟨rfl, rfl⟩, by decide⟩

theorem witness_UnmappedRequestsRaiseBuserr :
    ∀ a ∈ [0x34#8, 0x3F, 0xA0, 0xFF], Requests (asks true a 0 0xF) ⟨true, a, 0, 0xF⟩ ∧
      ((0x34 ≤ a.toNat ∧ a.toNat ≤ 0x3F) ∨ 0xA0 ≤ a.toNat) := by
  intro a ha
  refine ⟨⟨rfl, rfl⟩, ?_⟩
  revert a
  decide

theorem witness_ForbiddenWritesRaiseBuserr :
    (∀ a ∈ [0x00#8, 0x28, 0x60, 0x7C], Requests (asks true a 1 0xF) ⟨true, a, 1, 0xF⟩ ∧
      (a.toNat ∈ [0x00, 0x10, 0x14, 0x1C, 0x28] ∨ (0x60 ≤ a.toNat ∧ a.toNat < 0x80))) ∧
    Requests (asks true 0x30 1 0xE) ⟨true, 0x30, 1, 0xE⟩ ∧
    ((0x30 : BitVec 8).toNat ≤ 0x30 ∧ (0xE : BitVec 4) ≠ 0xF) := by
  refine ⟨?_, ⟨rfl, rfl⟩, by decide⟩
  intro a ha
  refine ⟨⟨rfl, rfl⟩, ?_⟩
  revert a
  decide

theorem witness_ReadsHaveNoSideEffects :
    Requests (asks false 0x0C 0 0) ⟨false, 0x0C, 0, 0⟩ ∧ (⟨false, 0x0C, 0, 0⟩ : Request).write = false :=
  ⟨⟨rfl, rfl⟩, rfl⟩

/-- The first and the last offset, and both ends of a buffer window. -/
theorem witness_ReadsReturnRegisters :
    (⟨false, 0x00, 0, 0⟩ : Request).write = false ∧ BitVec.ofNat 8 0x30 = 0x30#8 ∧
    BitVec.ofNat 8 (Buf.pld.base + 4 * 0) = 0x40#8 ∧ BitVec.ofNat 8 (Buf.rxf.base + 4 * 7) = 0x9C#8 := by
  decide

theorem witness_StatusBitsAndIrq : idle.rst = false ∧ ∃ t, cycleWith idle State.reset = .next t := ⟨rfl, _, rfl⟩

theorem witness_UngatedRegisterWrites : ∀ a ∈ [0x04, 0x20, 0x2C, 0x30],
    Requests (asks true (BitVec.ofNat 8 a) 5 0xF) ⟨true, BitVec.ofNat 8 a, 5, 0xF⟩ :=
  fun _ _ => ⟨rfl, rfl⟩

theorem witness_GatedRegisterWrites : State.reset.pend = none ∧ ∀ a ∈ [0x18, 0x24],
    Requests (asks true (BitVec.ofNat 8 a) 5 0xF) ⟨true, BitVec.ofNat 8 a, 5, 0xF⟩ :=
  ⟨rfl, fun _ _ => ⟨rfl, rfl⟩⟩

/-- With a completion in the cycle, with a pending command that is not due, and with nothing pending. -/
theorem witness_SetBeatsClear :
    Requests (asks true 0x0C 0x1E 0xF) ⟨true, 0x0C, 0x1E, 0xF⟩ ∧
    (∃ p, (due .nop State.reset).pend = some p ∧ p.remaining ≤ 1) ∧
    ¬ (∃ p, (waiting .nop 2 []).pend = some p ∧ p.remaining ≤ 1) ∧
    ¬ (∃ p, State.reset.pend = some p ∧ p.remaining ≤ 1) := by
  refine ⟨⟨rfl, rfl⟩, ⟨_, rfl, by decide⟩, ?_, ?_⟩ <;> rintro ⟨p, h, hp⟩ <;> cases h
  exact absurd hp (by decide)

/-- Word 0 and word 7 of an idle block; a write without a strobe to a busy one. -/
theorem witness_BufferWriteStoresLanes :
    (∀ j ∈ [0, 7], ∀ b ∈ [Buf.pld, Buf.rxf], b ≠ .txf ∧ j < 8 ∧
      Requests (asks true (BitVec.ofNat 8 (b.base + 4 * j)) 5 0x9)
        ⟨true, BitVec.ofNat 8 (b.base + 4 * j), 5, 0x9⟩) ∧
    State.reset.pend = none ∧ ((due .nop State.reset).pend = none ∨ (0 : BitVec 4) = 0) := by
  refine ⟨?_, rfl, .inr rfl⟩
  intro j hj b hb
  refine ⟨?_, ?_, rfl, rfl⟩
  · revert b
    decide
  · revert j
    decide

theorem witness_ResetCycleClearsRegisters : (⟨true, true, none⟩ : Inputs).rst = true := rfl

/-- A reset cycle of a state whose `irq` is 1. -/
theorem witness_ResetCycleOutputs : (⟨true, true, none⟩ : Inputs).rst = true ∧
    ({ State.reset with
        ctrl := ⟨true, false, false, false⟩
        status := { State.reset.status with done := true } } : State).irq = true := ⟨rfl, rfl⟩

/-- The reset state meets the invariant's every part but the pending command's; a due NOP meets that one. -/
theorem witness_StepKeepsInvariant : (due .nop State.reset).Inv ∧
    (∃ t, step { due .nop State.reset with inputs := [idle] } = .next t) := by
  refine ⟨⟨by decide, .inl rfl, ?_, by decide, fun _ => rfl, ?_, fun _ => rfl, ?_, by decide, by decide⟩,
    _, rfl⟩
  · intro k hk
    exact absurd hk (Nat.not_lt_zero k)
  · intro h
    cases h
  · intro p hp
    have : p = ⟨encode .nop, 1⟩ := (Option.some.inj hp).symm
    subst this
    exact ⟨by decide, .nop, by decide, rfl⟩

/-- A state whose results are valid: what CHECK leaves of the one-byte frame 00. -/
theorem witness_StepKeepsRxCurrent : ∃ s t, exec (.check false) (due (.check false) (withRx [0x00])) = .next s ∧
    s.status.rxValid = true ∧ s.RxCurrent ∧ step { s with inputs := [idle] } = .next t :=
  ⟨_, _, rfl, rfl, fun _ => ⟨false, rfl⟩, rfl⟩

end Sys2Proof.Tests
end

section
/-! PROOF. Who may write a register that only completing commands write, and how a read-only register meets the bus
(10_state.md R35; 20_memory.md R67, R68, R78). -/

namespace Sys2Proof.Machine

open Sys2Proof.Claims

/-! ### Parts of the state that only completions write -/

/-- The part `f` of the state is written by nothing in a cycle without reset, except by the effects of the commands whose
opcode is in `ops` (70_reset_and_hazards.md R251, R253): one field for each operation a cycle is made of. -/
structure WrittenOnlyBy {α : Type} (f : State → α) (ops : List (BitVec 4)) : Prop where
  takeInputs : ∀ s : State, f s.takeInputs = f s
  out : ∀ (s : State) (o : Outputs), f { s with out := o } = f s
  afterTick : ∀ (s : State) (tick : Bool), f (s.afterTick tick) = f s
  countDown : ∀ (s : State) (p : Pending), f (s.countDown p) = f s
  finish : ∀ s : State, f s.finish = f s
  effects : ∀ (i : Instr) (s : State), i.opcode ∉ ops → f (effectsOf i s) = f s
  accept : ∀ (s : State) (i : Instr), f (s.accept i) = f s
  raiseIllegal : ∀ (s : State) (c : Cause) (op : BitVec 4), f (s.raiseIllegal c op) = f s
  overrun : ∀ (s : State) (t : Target) (w : Word), f (s.overrun t w) = f s
  writeTarget : ∀ (s : State) (c e : Bool) (t : Target) (w : Word) (strb : BitVec 4),
    f (s.writeTarget c e t w strb) = f s

section
variable {α : Type} {f : State → α} {ops : List (BitVec 4)}

/-- Whether a listed command completes is a matter of `PEND` alone. -/
theorem completesOneOf_of_pend_eq {s t : State} (hp : t.pend = s.pend)
    (h : CompletesOneOf t ops) : CompletesOneOf s ops := by
  obtain ⟨p, i, hpend, hdue⟩ := h
  exact ⟨p, i, hp ▸ hpend, hdue⟩

/-- The engine's part of a cycle changes `f` only by completing a listed command. -/
theorem WrittenOnlyBy.completes_of_advanced_ne (hf : WrittenOnlyBy f ops) {s : State}
    (h : f s.advanced ≠ f s) : CompletesOneOf s ops := by
  rcases advanced_cases s with ⟨-, he⟩ | ⟨p, -, -, he⟩ | ⟨p, hp, hr, ⟨i, hd, he⟩ | ⟨-, he⟩⟩
  · exact absurd (congrArg f he) h
  · exact absurd (by rw [he, hf.countDown]) h
  · refine ⟨p, i, hp, hr, hd, ?_⟩
    by_contra hop
    exact h (by rw [he, hf.finish, hf.effects i s hop])
  · exact absurd (by rw [he, hf.finish]) h

/-- The request's part of a cycle does not change `f`. -/
theorem WrittenOnlyBy.requested_eq (hf : WrittenOnlyBy f ops) (s0 : State) (tick : Bool)
    (req : Option Request) (u : State) (idle : s0.pend = none → u.pend = none) :
    f (s0.requested tick req u) = f u := by
  rcases requested_cases s0 tick req u idle with
    he | ⟨-, q, -, he⟩ | ⟨-, c, op, -, -, he⟩ | ⟨-, i, -, he⟩ | ⟨q, -, -, -, -, -, he⟩
  · rw [he]
  · rw [he, hf.overrun]
  · rw [he, hf.raiseIllegal]
  · rw [he, hf.accept]
  · rw [he, hf.writeTarget]

/-- A step that changes `f` is a reset cycle or completes a listed command. -/
theorem WrittenOnlyBy.reset_or_completes_of_step_ne (hf : WrittenOnlyBy f ops) {s t : State}
    (h : step s = .next t) (hne : f t ≠ f s) : s.nextInputs.rst = true ∨ CompletesOneOf s ops := by
  rcases step_cases h with ⟨hr, -⟩ | ⟨-, rfl⟩
  · exact .inl hr
  · have hpend : (s.takeInputs.afterTick s.nextInputs.tick).pend = s.pend := State.afterTick_pend _ _
    refine .inr (completesOneOf_of_pend_eq hpend (hf.completes_of_advanced_ne fun hkept => hne ?_))
    rw [hf.out, hf.requested_eq, hkept, hf.afterTick, hf.takeInputs]
    exact fun hi => advanced_idle_of_idle (hpend.trans hi)

end

/-! ### Requests to a register -/

/-- A write to a read-only target is a bus error (20_memory.md R67). -/
theorem Request.busErr_of_readOnly {q : Request} (hw : q.write = true) (ht : q.target.readOnly = true) :
    q.busErr = true := by
  simp [Request.busErr, hw, ht]

/-- An aligned read of a mapped target is no bus error (20_memory.md R68). -/
theorem Request.busErr_of_read {q : Request} (hw : q.write = false) (ha : q.addr.extractLsb' 0 2 = 0)
    (ht : q.target ≠ .unmapped) : q.busErr = false := by
  simp [Request.busErr, hw, ha, ht]

/-- The response to an aligned read of a mapped target (20_memory.md R78). -/
theorem State.respond_of_read (s : State) {q : Request} (hw : q.write = false)
    (ha : q.addr.extractLsb' 0 2 = 0) (ht : q.target ≠ .unmapped) :
    s.respond (some q) = ⟨s.readWord q.target, false⟩ := by
  simp [State.respond, Request.busErr_of_read hw ha ht, hw]

/-- A request that fails the bus checks has no effect (20_memory.md R68). -/
theorem requested_of_busErr (s0 : State) (tick : Bool) {q : Request} (u : State) (h : q.busErr = true) :
    s0.requested tick (some q) u = u := by
  simp [State.requested, h]

/-- A request that fails the bus checks raises BUSERR: the cycle is the one without the request, but for its response
(20_memory.md R68). -/
theorem raisesBuserr_of_busErr (s : State) {x : Inputs} {q : Request} (hq : Requests x q)
    (h : q.busErr = true) : RaisesBuserr s x := by
  obtain ⟨hrst, hreq⟩ := hq
  refine ⟨_, cycleWith_eq _ _, ?_⟩
  have hrun : ({ x with req := none } : Inputs).rst = false := hrst
  rw [cycleWith_eq, cycled_of_run s hrst, cycled_of_run s hrun, hreq, requested_of_busErr _ _ _ h]
  simp [State.requested, State.outputs, State.respond, hrst, hreq, h]

/-! ### CRC.REM -/

/-- Only CRC_CLR, CRC_BYTE and CRC_PLD have an effect on `CRC.REM` (40_crc.md R125, R126, R127). -/
theorem effectsOf_crcRem (i : Instr) (s : State) (h : i.opcode ∉ [0x1#4, 0x2#4, 0x3#4]) :
    (effectsOf i s).crcRem = s.crcRem := by
  cases i
  case crcClr | crcByte | crcPld => exact absurd h (by simp [Instr.opcode])
  all_goals rfl

@[simp] theorem State.overrun_crcRem (s : State) (t : Target) (w : Word) :
    (s.overrun t w).crcRem = s.crcRem := by
  unfold State.overrun
  split <;> rfl

/-- No bus write reaches `CRC.REM` (20_memory.md R67). -/
@[simp] theorem State.writeTarget_crcRem (s : State) (c e : Bool) (t : Target) (w : Word)
    (strb : BitVec 4) : (s.writeTarget c e t w strb).crcRem = s.crcRem := by
  unfold State.writeTarget
  split <;> rfl

theorem crcRem_writtenOnlyBy : WrittenOnlyBy State.crcRem [0x1, 0x2, 0x3] where
  takeInputs _ := rfl
  out _ _ := rfl
  afterTick := State.afterTick_crcRem
  countDown := State.countDown_crcRem
  finish := State.finish_crcRem
  effects := effectsOf_crcRem
  accept := State.accept_crcRem
  raiseIllegal := State.raiseIllegal_crcRem
  overrun := State.overrun_crcRem
  writeTarget := State.writeTarget_crcRem

theorem Request.target_crc {q : Request} (h : q.addr = 0x10) : q.target = .crc := by
  rw [Request.target, h]
  rfl

/-- A read of offset `0x10` answers `CRC.REM` with zeros above (10_state.md R35). -/
theorem State.respond_crc (s : State) {q : Request} (hw : q.write = false) (ha : q.addr = 0x10) :
    s.respond (some q) = ⟨0#24 ++ s.crcRem, false⟩ := by
  have ht := Request.target_crc ha
  rw [s.respond_of_read hw (by rw [ha]; rfl) (by rw [ht]; decide), ht, State.readWord,
    BitVec.setWidth_eq_append (by decide)]
  rfl

/-- Settles O42: `CRC.REM` is a part of the state that only the three commands' completions write, and a read-only
register of the bus. -/
theorem onlyCrcCommandsWriteRem : Obligations.OnlyCrcCommandsWriteRem := by
  refine ⟨fun s t => crcRem_writtenOnlyBy.reset_or_completes_of_step_ne, rfl, fun s q => s.respond_crc, ?_⟩
  intro s x q hq hw ha
  have readOnly : q.target.readOnly = true := by rw [Request.target_crc ha]; rfl
  exact raisesBuserr_of_busErr s hq (Request.busErr_of_readOnly hw readOnly)

end Sys2Proof.Machine
end

section
/-! PROOF. The bus checks of a request (20_memory.md R62, R63, R66, R67, R68), and what a write to a buffer window stores
(R64). -/

namespace Sys2Proof.Machine

open Sys2Proof.Claims

/-! ### The register map (20_memory.md R61) -/

/-- Above the registers an offset names a buffer byte or nothing. -/
theorem Target.ofAddr_above_registers {a : BitVec 8} (h : 0x30 < a.toNat) :
    Target.ofAddr a =
      if 0x40 ≤ a.toNat ∧ a.toNat < 0x60 then .buf .pld (a.toNat - 0x40)
      else if 0x60 ≤ a.toNat ∧ a.toNat < 0x80 then .buf .txf (a.toNat - 0x60)
      else if 0x80 ≤ a.toNat ∧ a.toNat < 0xA0 then .buf .rxf (a.toNat - 0x80)
      else .unmapped := by
  have ne : ∀ r : BitVec 8, r.toNat ≤ 0x30 → a ≠ r := by
    rintro r hr rfl
    omega
  simp (disch := decide) only [Target.ofAddr, ne, if_false]

/-- Every offset inside a buffer's window names its byte of that buffer. -/
theorem Target.ofAddr_of_window {a : BitVec 8} (b : Buf) (h : b.base ≤ a.toNat ∧ a.toNat < b.base + 32) :
    Target.ofAddr a = .buf b (a.toNat - b.base) := by
  have above : 0x30 < a.toNat := by have := b.base_bounds; omega
  rw [Target.ofAddr_above_registers above]
  cases b <;> simp only [Buf.base] at h ⊢
  case pld => rw [if_pos (by omega)]
  case txf => rw [if_neg (by omega), if_pos (by omega)]
  case rxf => rw [if_neg (by omega), if_neg (by omega), if_pos (by omega)]

theorem Target.ofAddr_of_unmapped {a : BitVec 8}
    (h : (0x34 ≤ a.toNat ∧ a.toNat ≤ 0x3F) ∨ 0xA0 ≤ a.toNat) : Target.ofAddr a = .unmapped := by
  rw [Target.ofAddr_above_registers (by omega), if_neg (by omega), if_neg (by omega), if_neg (by omega)]

/-- The aligned offsets up to `0x30` are the thirteen registers. -/
theorem Target.control_of_register {a : BitVec 8} (ha : a.extractLsb' 0 2 = 0) (h : a.toNat ≤ 0x30) :
    (Target.ofAddr a).control = true := by
  revert a
  decide +kernel

theorem Target.readOnly_of_register {a : BitVec 8} (h : a.toNat ∈ [0x00, 0x10, 0x14, 0x1C, 0x28]) :
    (Target.ofAddr a).readOnly = true := by
  revert a
  decide +kernel

/-! ### The checks of a request (20_memory.md R68) -/

/-- The four checks: alignment (R62), unmapped (R66), and for a write read-only (R67) and strobes (R63). -/
theorem Request.busErr_iff {q : Request} :
    q.busErr = true ↔ q.addr.extractLsb' 0 2 ≠ 0 ∨ q.target = .unmapped ∨
      (q.write = true ∧ (q.target.readOnly = true ∨ (q.target.control = true ∧ q.wstrb ≠ 0xF))) := by
  unfold Request.busErr
  by_cases ht : q.target = .unmapped
  · simp [ht]
  · cases hw : q.write <;> simp [ht]

/-- A write to a register without all four strobes is a bus error, aligned or not (20_memory.md R62, R63). -/
theorem Request.busErr_of_partial_strobes {q : Request} (hw : q.write = true) (ha : q.addr.toNat ≤ 0x30)
    (hs : q.wstrb ≠ 0xF) : q.busErr = true := by
  by_cases aligned : q.addr.extractLsb' 0 2 = 0
  · exact Request.busErr_iff.2 (.inr (.inr ⟨hw, .inr ⟨Target.control_of_register aligned ha, hs⟩⟩))
  · exact Request.busErr_iff.2 (.inl aligned)

/-- The checks of a read do not see the strobes (20_memory.md R63). -/
theorem Request.busErr_read_strobes {q : Request} (strb : BitVec 4) (hw : q.write = false) :
    ({ q with wstrb := strb } : Request).busErr = q.busErr := by
  simp [Request.busErr, Request.target, hw]

/-- Settles O46: alignment is the first check of R68. -/
theorem misalignedRequestsRaiseBuserr : Obligations.MisalignedRequestsRaiseBuserr :=
  fun s _ _ hq misaligned => raisesBuserr_of_busErr s hq (Request.busErr_iff.2 (.inl misaligned))

/-- Settles O47: the offsets named are those the register map leaves unmapped. -/
theorem unmappedRequestsRaiseBuserr : Obligations.UnmappedRequestsRaiseBuserr :=
  fun s _ _ hq ha =>
    raisesBuserr_of_busErr s hq (Request.busErr_iff.2 (.inr (.inl (Target.ofAddr_of_unmapped ha))))

/-- Settles O48: the write checks of R68 for the read-only registers, the TXF window and partial strobes; a read answers
from its offset alone. -/
theorem forbiddenWritesRaiseBuserr : Obligations.ForbiddenWritesRaiseBuserr := by
  constructor
  · intro s x q hq hw hforbidden
    refine raisesBuserr_of_busErr s hq ?_
    rcases hforbidden with register | txf | ⟨low, strobes⟩
    · exact Request.busErr_of_readOnly hw (Target.readOnly_of_register register)
    · refine Request.busErr_of_readOnly hw ?_
      rw [Request.target, Target.ofAddr_of_window .txf txf]
      rfl
    · exact Request.busErr_of_partial_strobes hw low strobes
  · intro s q strb hw
    simp only [State.respond, Request.busErr_read_strobes strb hw, Request.target]

/-! ### A write to a buffer window (20_memory.md R64) -/

/-- The request that writes word `j` of a buffer. -/
def bufWrite (b : Buf) (j : Nat) (w : Word) (strb : BitVec 4) : Request :=
  ⟨true, BitVec.ofNat 8 (b.base + 4 * j), w, strb⟩

/-- The state R64 leaves: the strobed lanes of word `j` are stored, and a stored lane of `RXF` clears `RX_VALID`. -/
def State.storeLanes (s : State) (b : Buf) (j : Nat) (w : Word) (strb : BitVec 4) : State :=
  { s with
    mem := s.mem.setLanes b (4 * j) w strb
    status := { s.status with rxValid := s.status.rxValid && (b == .pld || strb == 0) } }

section
variable {b : Buf} {j : Nat} (w : Word) (strb : BitVec 4)

theorem bufWrite_addr (hj : j < 8) : (bufWrite b j w strb).addr.toNat = b.base + 4 * j := by
  have := b.base_bounds
  simp only [bufWrite, BitVec.toNat_ofNat]
  omega

theorem bufWrite_aligned (hj : j < 8) : (bufWrite b j w strb).addr.extractLsb' 0 2 = 0 := by
  have aligned : b.base % 4 = 0 := by cases b <;> rfl
  apply BitVec.eq_of_toNat_eq
  rw [BitVec.extractLsb'_toNat, bufWrite_addr w strb hj, Nat.shiftRight_zero]
  change (b.base + 4 * j) % 4 = 0
  omega

theorem bufWrite_target (hj : j < 8) : (bufWrite b j w strb).target = .buf b (4 * j) := by
  have addr := bufWrite_addr (b := b) w strb hj
  rw [Request.target, Target.ofAddr_of_window b (by omega), addr, Nat.add_sub_cancel_left]

/-- A write to `PLD` or `RXF` raises no BUSERR, whatever its strobes are. -/
theorem bufWrite_busErr (hb : b ≠ .txf) (hj : j < 8) : (bufWrite b j w strb).busErr = false := by
  rw [Bool.eq_false_iff, Ne, Request.busErr_iff, bufWrite_target w strb hj]
  have writable : (Target.buf b (4 * j)).readOnly = false := by
    cases b
    case txf => exact absurd rfl hb
    all_goals rfl
  simp [bufWrite_aligned w strb hj, writable, Target.control]

end

@[simp] theorem Memory.setLanes_no_strobe (m : Memory) (b : Buf) (j : Nat) (w : Word) :
    m.setLanes b j w 0#4 = m := rfl

@[simp] theorem State.storeLanes_no_strobe (s : State) (b : Buf) (j : Nat) (w : Word) :
    s.storeLanes b j w 0#4 = s := by
  simp [State.storeLanes]

theorem State.writeTarget_buf (s : State) (c e : Bool) {b : Buf} (j : Nat) (w : Word) {strb : BitVec 4}
    (hb : b ≠ .txf) (hs : strb ≠ 0#4) :
    s.writeTarget c e (.buf b (4 * j)) w strb = s.storeLanes b j w strb := by
  cases b
  case txf => exact absurd rfl hb
  case pld => simp [State.writeTarget, State.storeLanes]
  case rxf => simp [State.writeTarget, State.storeLanes, State.staleRx, hs]

/-- A buffer write that is not gated stores its lanes on the state after the engine's part of the cycle. -/
theorem requested_bufWrite (s0 : State) (tick : Bool) {b : Buf} {j : Nat} (w : Word) (strb : BitVec 4)
    (u : State) (hb : b ≠ .txf) (hj : j < 8) (free : s0.pend = none ∨ strb = 0) :
    s0.requested tick (some (bufWrite b j w strb)) u = u.storeLanes b j w strb := by
  by_cases hs : strb = 0#4
  · subst hs
    simp [State.requested, bufWrite]
  · have idle : s0.busy = false := by simp [State.busy, free.resolve_right hs]
    have hw : (bufWrite b j w strb).write = true := rfl
    have hstrb : (bufWrite b j w strb).wstrb = strb := rfl
    have hdata : (bufWrite b j w strb).wdata = w := rfl
    simp [State.requested, hw, hstrb, hdata, bufWrite_busErr w strb hb hj, bufWrite_target w strb hj, hs, idle,
      State.writeTarget_buf u _ _ j w hb hs]

/-- What a lane of the addressed word holds after the write. -/
theorem State.storeLanes_buf (s : State) (b : Buf) {j k : Nat} (w : Word) (strb : BitVec 4) (hj : j < 8)
    (hk : k < 4) :
    (s.storeLanes b j w strb).buf b (4 * j + k) =
      if strb.getLsbD k = true then w.extractLsb' (8 * k) 8 else s.buf b (4 * j + k) := by
  have read := Memory.read_setLanes s.mem b (4 * j) w strb (b.base + (4 * j + k)) (by omega)
  rw [show b.base + (4 * j + k) - (b.base + 4 * j) = k by omega] at read
  simp only [State.buf, State.readByte, State.storeLanes, State.unwritten, read]
  by_cases hs : strb.getLsbD k = true
  · rw [if_pos ⟨by omega, by omega, hs⟩, if_pos hs]
    rfl
  · simp [hs]

/-- The write leaves every byte outside the addressed word. -/
theorem State.storeLanes_readByte (s : State) (b : Buf) {j : Nat} (w : Word) (strb : BitVec 4) (hj : j < 8)
    (a : Nat) (h : ¬ (b.base + 4 * j ≤ a ∧ a < b.base + 4 * j + 4)) :
    (s.storeLanes b j w strb).readByte a = s.readByte a := by
  refine State.readByte_congr a ?_ rfl
  exact (Memory.read_setLanes s.mem b (4 * j) w strb a (by omega)).trans
    (if_neg fun ⟨hlo, hhi, _⟩ => h ⟨hlo, hhi⟩)

/-- A cycle's response to a buffer write: no error, no data. -/
theorem outputs_bufWrite (s : State) {x : Inputs} {b : Buf} {j : Nat} {w : Word} {strb : BitVec 4}
    (hq : Requests x (bufWrite b j w strb)) (hb : b ≠ .txf) (hj : j < 8) :
    s.outputs x = ⟨⟨0, false⟩, s.irq⟩ := by
  obtain ⟨hrst, hreq⟩ := hq
  have hw : (bufWrite b j w strb).write = true := rfl
  simp [State.outputs, State.respond, hrst, hreq, hw, bufWrite_busErr w strb hb hj]

/-- The cycle of a buffer write that is not gated is the one without the request, with the lanes stored after it. -/
theorem cycled_bufWrite (s : State) {x : Inputs} {b : Buf} {j : Nat} {w : Word} {strb : BitVec 4}
    (hq : Requests x (bufWrite b j w strb)) (hb : b ≠ .txf) (hj : j < 8) (free : s.pend = none ∨ strb = 0) :
    s.cycled x =
      { (s.cycled { x with req := none }).storeLanes b j w strb with out := ⟨⟨0, false⟩, s.irq⟩ } := by
  have answer := outputs_bufWrite s hq hb hj
  obtain ⟨hrst, hreq⟩ := hq
  have hrun : ({ x with req := none } : Inputs).rst = false := hrst
  rw [cycled_of_run s hrst, cycled_of_run s hrun, hreq, requested_bufWrite s x.tick w strb _ hb hj free, answer]
  rfl

/-- An idle block's cycle without a request keeps its buffers. -/
theorem cycled_mem_of_idle {s : State} {x : Inputs} (hrst : x.rst = false) (hreq : x.req = none)
    (idle : s.pend = none) : (s.cycled x).mem = s.mem := by
  have still : (s.afterTick x.tick).pend = none := (s.afterTick_pend x.tick).trans idle
  rw [cycled_of_run s hrst, hreq, advanced_of_idle still]
  exact s.afterTick_mem x.tick

/-- Settles O55: the cycle is the one without the request, with the strobed lanes stored after it. -/
theorem bufferWriteStoresLanes : Obligations.BufferWriteStoresLanes := by
  intro s x b j w strb hb hj hq free
  have stored := cycled_bufWrite s hq hb hj free
  obtain ⟨hrst, -⟩ := hq
  refine ⟨_, _, cycleWith_eq _ _, cycleWith_eq _ _, ?_⟩
  rw [stored]
  exact ⟨rfl, fun k => State.storeLanes_buf _ b w strb hj, State.storeLanes_readByte _ b w strb hj,
    cycled_mem_of_idle hrst rfl⟩

end Sys2Proof.Machine
end

section
/-! PROOF. A command word and its five fields: where `encode` puts each of them, and that the field reads of `decode` take
it out again (30_encoding.md R91, R98). -/

namespace Sys2Proof.Laws

open Sys2Proof.Claims

section
variable (op sub : BitVec 4) (seq len data : Byte)

/-- The word as R98 writes `encode`: the library's shift form of a concatenation, once per field below the top one. -/
theorem assemble_eq_or_shifts :
    assemble op sub seq len data =
      (data.setWidth 32 <<< 24) ||| (len.setWidth 32 <<< 16) ||| (seq.setWidth 32 <<< 8) |||
        (sub.setWidth 32 <<< 4) ||| op.setWidth 32 := by
  have word : assemble op sub seq len data = (data ++ len ++ seq ++ sub ++ op).setWidth 32 :=
    (BitVec.setWidth_eq _).symm
  simp only [word, BitVec.setWidth_append_eq_shiftLeft_setWidth_or, BitVec.shiftLeft_or_distrib,
    ← BitVec.shiftLeft_add]

/-! ### The field reads: each strips the fields below its own -/

/-- The `SUB` field, which the model reads bit by bit (`Word.sub0`, `Word.sub1`). -/
theorem extractLsb'_sub_assemble : (assemble op sub seq len data).extractLsb' 4 4 = sub :=
  (extractLsb'_append_high _ op 0 4 4 rfl).trans (extractLsb'_append_low _ sub)

theorem seqField_assemble : Word.seqField (assemble op sub seq len data) = seq := calc
  _ = (data ++ len ++ seq ++ sub).extractLsb' 4 8 := extractLsb'_append_high _ op 4 8 8 rfl
  _ = (data ++ len ++ seq).extractLsb' 0 8 := extractLsb'_append_high _ sub 0 8 4 rfl
  _ = seq := extractLsb'_append_low _ seq

theorem lenField_assemble : Word.lenField (assemble op sub seq len data) = len := calc
  _ = (data ++ len ++ seq ++ sub).extractLsb' 12 8 := extractLsb'_append_high _ op 12 8 16 rfl
  _ = (data ++ len ++ seq).extractLsb' 8 8 := extractLsb'_append_high _ sub 8 8 12 rfl
  _ = (data ++ len).extractLsb' 0 8 := extractLsb'_append_high _ seq 0 8 8 rfl
  _ = len := extractLsb'_append_low _ len

theorem dataField_assemble : Word.dataField (assemble op sub seq len data) = data := calc
  _ = (data ++ len ++ seq ++ sub).extractLsb' 20 8 := extractLsb'_append_high _ op 20 8 24 rfl
  _ = (data ++ len ++ seq).extractLsb' 16 8 := extractLsb'_append_high _ sub 16 8 20 rfl
  _ = (data ++ len).extractLsb' 8 8 := extractLsb'_append_high _ seq 8 8 16 rfl
  _ = data.extractLsb' 0 8 := extractLsb'_append_high _ len 0 8 8 rfl
  _ = data := BitVec.extractLsb'_eq_self

end

/-- Settles O3: the shift form of the word, then one read per field. -/
theorem assembledFieldsReadBack : Obligations.AssembledFieldsReadBack := by
  intro op sub seq len data
  have opRead : field (assemble op sub seq len data) 0 4 = op.toNat :=
    congrArg BitVec.toNat (opField_assemble op sub seq len data)
  have subRead : field (assemble op sub seq len data) 4 4 = sub.toNat :=
    congrArg BitVec.toNat (extractLsb'_sub_assemble op sub seq len data)
  exact ⟨assemble_eq_or_shifts op sub seq len data, opRead, subRead, seqField_assemble op sub seq len data,
    lenField_assemble op sub seq len data, dataField_assemble op sub seq len data⟩

end Sys2Proof.Laws
end

section
/-! PROOF. The CRC8 function over GF(2): the table is linear with kernel 0, so it is a bijection, and a fold is linear,
composes, and is injective in its start remainder and in each of its bytes (40_crc.md R120 to R124, R128, R129). -/

namespace Sys2Proof.Machine

/-! ### One shift (40_crc.md R120) -/

/-- A shift without its case split: the polynomial is what the top bit adds to the shifted byte. -/
theorem crcShift_eq_xor (r : Byte) :
    crcShift r = (r <<< 1) ^^^ (if r.getLsbD 7 then Config.poly else 0) := by
  unfold crcShift
  split
  · rfl
  · exact BitVec.xor_zero.symm

/-- A shift is linear, because what the top bit adds is linear in that bit. -/
theorem crcShift_xor (a b : Byte) : crcShift (a ^^^ b) = crcShift a ^^^ crcShift b := by
  have polyPart : ∀ x y : Bool, (if x ^^ y then Config.poly else 0) =
      (if x then Config.poly else 0) ^^^ (if y then Config.poly else 0) := by decide
  simp only [crcShift_eq_xor, BitVec.getLsbD_xor, BitVec.shiftLeft_xor_distrib, polyPart]
  ac_rfl

/-- A shift loses nothing: the top bit it drops comes back as bit 0, which the polynomial sets. -/
theorem crcShift_eq_zero_iff (r : Byte) : crcShift r = 0#8 ↔ r = 0#8 := by
  refine ⟨fun h => ?_, fun h => by rw [h]; rfl⟩
  by_cases top : r.getLsbD 7 = true
  · have bit0 : (crcShift r).getLsbD 0 = true := by simp [crcShift, top, Config.poly]
    simp [h] at bit0
  · have shifted : r <<< 1 = 0#8 := (if_neg top).symm.trans h
    refine BitVec.eq_of_getLsbD_eq fun k hk => ?_
    rw [BitVec.getLsbD_zero]
    by_cases last : k = 7
    · simpa [last] using top
    · have moved : (r <<< 1).getLsbD (k + 1) = r.getLsbD k := by simp [show k + 1 < 8 by omega, hk]
      rw [← moved, shifted, BitVec.getLsbD_zero]

/-! ### The table (40_crc.md R120, R128) -/

theorem crcTable_xor (a b : Byte) : crcTable (a ^^^ b) = crcTable a ^^^ crcTable b := by
  simp only [crcTable, crcShift_xor]

@[simp] theorem crcTable_eq_zero_iff (d : Byte) : crcTable d = 0#8 ↔ d = 0#8 := by
  simp only [crcTable, crcShift_eq_zero_iff]

@[simp] theorem crcTable_zero : crcTable 0#8 = 0#8 := (crcTable_eq_zero_iff 0).2 rfl

/-- A byte that equals the remainder leaves 0 (40_crc.md R124). -/
theorem crcTable_xor_self (b : Byte) : crcTable (b ^^^ b) = 0 := by
  rw [BitVec.xor_self]
  exact crcTable_zero

/-- A linear map with kernel 0 is injective. -/
theorem crcTable_injective : Function.Injective crcTable := by
  intro a b h
  rw [← BitVec.xor_eq_zero_iff, ← crcTable_xor, crcTable_eq_zero_iff] at h
  exact BitVec.xor_eq_zero_iff.1 h

theorem crcTable_bijective : Function.Bijective crcTable :=
  Finite.injective_iff_bijective.1 crcTable_injective

/-! ### The fold (40_crc.md R121, R128, R129) -/

@[simp] theorem crcFold_nil (r : Byte) : crcFold r [] = r := rfl

@[simp] theorem crcFold_cons (r b : Byte) (bs : List Byte) :
    crcFold r (b :: bs) = crcFold (crcTable (b ^^^ r)) bs := rfl

/-- A fold goes on where the one before it stopped. -/
theorem crcFold_append (r : Byte) (s t : List Byte) : crcFold r (s ++ t) = crcFold (crcFold r s) t := by
  induction s generalizing r with
  | nil => rfl
  | cons b s ih => exact ih _

/-- A fold is linear in its start remainder and its bytes together. -/
theorem crcFold_xor (r q : Byte) (a e : List Byte) (h : a.length = e.length) :
    crcFold (r ^^^ q) (List.zipWith (· ^^^ ·) a e) = crcFold r a ^^^ crcFold q e := by
  induction a generalizing r q e with
  | nil =>
    obtain rfl := List.length_eq_zero_iff.1 h.symm
    rfl
  | cons b a ih =>
    cases e with
    | nil => cases h
    | cons c e =>
      have step : crcTable ((b ^^^ c) ^^^ (r ^^^ q)) = crcTable (b ^^^ r) ^^^ crcTable (c ^^^ q) := by
        rw [← crcTable_xor]
        congr 1
        ac_rfl
      rw [List.zipWith_cons_cons, crcFold_cons, step, ih _ _ e (Nat.succ.inj h)]
      rfl

/-- Zeros folded from 0 leave 0. -/
@[simp] theorem crcFold_zeros (k : Nat) : crcFold 0#8 (List.replicate k 0#8) = 0#8 := by
  induction k with
  | zero => rfl
  | succ k ih => simpa [List.replicate_succ] using ih

/-- Different start remainders never meet while the same bytes are folded. -/
theorem crcFold_injective (s : List Byte) : Function.Injective (crcFold · s) := by
  induction s with
  | nil => exact fun _ _ h => h
  | cons b s ih => exact fun _ _ h => (BitVec.xor_right_inj b).1 (crcTable_injective (ih h))

/-- Changing one byte of a sequence changes its fold. -/
theorem crcFold_ne_of_byte_ne (r : Byte) (front back : List Byte) {b c : Byte} (h : b ≠ c) :
    crcFold r (front ++ b :: back) ≠ crcFold r (front ++ c :: back) := by
  intro same
  rw [crcFold_append, crcFold_append] at same
  exact h ((BitVec.xor_left_inj _).1 (crcTable_injective (crcFold_injective back same)))

/-- A byte XORed with a nonzero mask is another byte, so the fold of a sequence that folds to 0 leaves 0. -/
theorem crc8_ne_zero_of_masked_byte {front back : List Byte} {b mask : Byte}
    (h : crc8 (front ++ b :: back) = 0) (hm : mask ≠ 0) : crc8 (front ++ (b ^^^ mask) :: back) ≠ 0 := by
  have changed : b ^^^ mask ≠ b := fun same => hm ((BitVec.xor_right_inj b).1 (by simpa using same))
  exact h ▸ crcFold_ne_of_byte_ne _ front back changed

/-- CHECK reports `CRC_OK` only of a frame that folds to 0 (42_check_and_test.md R161, R162). -/
theorem checkFrame_crcOk_of_fold_ne_zero (hasSeq : Bool) (len : Byte) {frame : List Byte} (h : crc8 frame ≠ 0) :
    (checkFrame hasSeq len frame).crcOk = false := by
  unfold checkFrame
  split
  · rfl
  · exact beq_eq_false_iff_ne.2 h

/-- Settles O11: the last byte meets itself as the remainder, and `T[0] = 0`. -/
theorem appendedCrcFoldsToZero : Obligations.AppendedCrcFoldsToZero := by
  intro m
  calc crc8 (m ++ [crc8 m])
      = crcFold (crc8 m) [crc8 m] := crcFold_append _ m _
    _ = crcTable (crc8 m ^^^ crc8 m) := rfl
    _ = 0 := crcTable_xor_self _

/-- Settles O12: the table is linear with kernel 0, and the fold is injective in each byte. The change that goes
undetected is `01` followed by `T[01]`. -/
theorem singleByteErrorsDetected : Obligations.SingleByteErrorsDetected := by
  refine ⟨crcTable_xor, crcTable_bijective, fun a e h => crcFold_xor 0 0 a e h, ?_,
    fun _ _ _ _ h hm => crc8_ne_zero_of_masked_byte h hm, ?_, ?_⟩
  · intro j k b hb
    have zeros : crcFold 0 (List.replicate j 0 ++ 0 :: List.replicate k 0) = 0 := by
      simp [crcFold_append]
    exact fun h => crcFold_ne_of_byte_ne 0 _ _ hb (h.trans zeros.symm)
  · intro hasSeq len front back b h
    exact checkFrame_crcOk_of_fold_ne_zero hasSeq len (crc8_ne_zero_of_masked_byte h (by decide))
  · exact ⟨[0x00, 0x00], [0x01, 0x07], rfl, ⟨0x01, by decide, by decide⟩, by decide +kernel, by decide +kernel⟩

/-- Settles O13: composition, `T[0] = 0`, and the two texts' values once each, the zero byte in front dropped. -/
theorem foldComposes : Obligations.FoldComposes := by
  have leadingZero : ∀ s : List Byte, crc8 ([0x00] ++ s) = crc8 s := fun s =>
    (crcFold_append 0 [0x00] s).trans (congrArg (crcFold · s) crcTable_zero)
  have ack : crc8 [0x41, 0x43, 0x4B] = 0x7F := by decide +kernel
  have nak : crc8 [0x4E, 0x41, 0x4B] = 0x12 := by decide +kernel
  exact ⟨crcFold_append, crcTable_zero, leadingZero, (leadingZero _).trans ack, ack, (leadingZero _).trans nak, nak⟩

end Sys2Proof.Machine
end

section
/-! PROOF. Which words a mask of zeros rejects, and the words of the CRC8 unit's commands, both ways (30_encoding.md R91
to R94). -/

namespace Sys2Proof.Laws

open Sys2Proof.Claims

/-! ### Reserved fields -/

/-- A word with a nonzero bit inside a mask of zeros decodes to the reserved-field error. -/
theorem withZeros_of_ne {w zeros : Word} (i : Instr) (h : w &&& zeros ≠ 0) :
    withZeros w zeros i = .error (.reservedField w.opField) :=
  if_neg h

/-- A mask that covers a field is met by every word whose field is nonzero. -/
theorem and_ne_zero_of_field_ne {w zeros : Word} {lo len : Nat}
    (cover : zeros.extractLsb' lo len = BitVec.allOnes len) (h : field w lo len ≠ 0) : w &&& zeros ≠ 0 := by
  intro clear
  have masked := congrArg (BitVec.extractLsb' lo len) clear
  rw [BitVec.extractLsb'_and, cover, BitVec.and_allOnes] at masked
  exact h (by rw [field, masked]; simp)

theorem decode_crcClr {w : Word} (h : Word.opField w = 0x1) : decode w = withZeros w 0xFFFFFFF0 .crcClr := by
  unfold decode
  rw [h]
  rfl

theorem decode_crcByte {w : Word} (h : Word.opField w = 0x2) :
    decode w = withZeros w 0x00FFFFF0 (.crcByte (Word.dataField w)) := by
  unfold decode
  rw [h]
  rfl

theorem decode_crcPld {w : Word} (h : Word.opField w = 0x3) :
    decode w = withZeros w 0xFF00FFF0 (.crcPld (Word.lenField w)) := by
  unfold decode
  rw [h]
  rfl

/-! ### The words of the CRC8 unit's commands -/

/-- A mask meets an assembled word field by field. -/
theorem assemble_and (op sub op' sub' : BitVec 4) (seq len data seq' len' data' : Byte) :
    assemble op sub seq len data &&& assemble op' sub' seq' len' data' =
      assemble (op &&& op') (sub &&& sub') (seq &&& seq') (len &&& len') (data &&& data') := by
  unfold assemble
  refine (and_append (data ++ len ++ seq ++ sub) (data' ++ len' ++ seq' ++ sub') op op').trans ?_
  simp only [and_append]

/-- The fields below `LEN` as one field. -/
theorem assemble_eq_len_append (op sub : BitVec 4) (seq len data : Byte) :
    assemble op sub seq len data = data ++ len ++ (seq ++ sub ++ op) := by
  have word : data ++ len ++ (seq ++ sub ++ op) = (data ++ len ++ (seq ++ sub ++ op)).setWidth 32 :=
    (BitVec.setWidth_eq _).symm
  rw [assemble_eq_or_shifts, word]
  simp only [BitVec.setWidth_append_eq_shiftLeft_setWidth_or, BitVec.shiftLeft_or_distrib,
    ← BitVec.shiftLeft_add, BitVec.or_assoc]

theorem encodedAs_crcByte (b : Byte) : EncodedAs (.crcByte b) (b ++ 0x000002#24) := by
  have word : encode (.crcByte b) = b ++ 0x000002#24 :=
    (assemble_eq_len_append 0x2 0 0 0 b).trans BitVec.append_assoc
  have clear : encode (.crcByte b) &&& 0x00FFFFF0 = 0 :=
    (assemble_and 0x2 0 0 0xF 0 0 b 0xFF 0xFF 0).trans (congrArg (assemble 0 0 0 0) BitVec.and_zero)
  refine ⟨word, ?_⟩
  rw [← word, decode_crcByte (OpField.crcByte b), withZeros_eq_ok]
  exact ⟨clear, congrArg Instr.crcByte (dataField_assemble _ _ _ _ b)⟩

theorem encodedAs_crcPld (n : Byte) : EncodedAs (.crcPld n) (0#8 ++ n ++ 0x0003#16) := by
  have word : encode (.crcPld n) = 0#8 ++ n ++ 0x0003#16 := assemble_eq_len_append 0x3 0 0 n 0
  have clear : encode (.crcPld n) &&& 0xFF00FFF0 = 0 :=
    (assemble_and 0x3 0 0 0xF 0 n 0 0xFF 0 0xFF).trans (congrArg (assemble 0 0 0 · 0) BitVec.and_zero)
  refine ⟨word, ?_⟩
  rw [← word, decode_crcPld (OpField.crcPld n), withZeros_eq_ok]
  exact ⟨clear, congrArg Instr.crcPld (lenField_assemble _ _ _ n _)⟩

end Sys2Proof.Laws
end

section
/-! PROOF. What acceptance and completion of a command leave, in the claims' words, and the commands of the CRC8 unit
(40_crc.md R125, R126, R127). -/

namespace Sys2Proof.Machine

open Sys2Proof.Claims Sys2Proof.Laws

/-! ### A command's two moments (60_exceptions.md R203; 70_reset_and_hazards.md R250, R251) -/

theorem exec_rejects {i : Instr} {s : State} {c : Cause} (idle : s.pend = none) (h : s.firstCause i = some c) :
    exec i s = .next (rejected s c.code i.opcode) := by
  rw [exec_of_idle i idle, presented_of_cause h]
  rfl

theorem exec_accepts {i : Instr} {s : State} (idle : s.pend = none) (h : s.firstCause i = none) :
    exec i s = .next (accepted s (encode i)) := by
  rw [exec_of_idle i idle, presented_of_legal h]
  rfl

theorem exec_completes {i : Instr} {s : State} {p : Pending} (h : s.pend = some p) :
    exec i s = .next (completed (effectsOf i s)) :=
  exec_of_pending i h

/-- A command without an operand check is accepted by every idle block. -/
theorem alwaysAccepted_of_no_cause {i : Instr} (h : ∀ s : State, s.firstCause i = none) : AlwaysAccepted i :=
  fun s idle => exec_accepts idle (h s)

/-! ### Reserved fields (30_encoding.md R93, R94) -/

/-- An opcode whose words the decoder checks against a mask rejects every word the mask catches. -/
theorem rejectsReserved_of_mask {op : BitVec 4} {zeros : Word} {i : Word → Instr} {bad : Word → Prop}
    (decodes : ∀ w : Word, Word.opField w = op → decode w = withZeros w zeros (i w))
    (caught : ∀ w, bad w → w &&& zeros ≠ 0) : RejectsReserved op bad := by
  intro s w idle hop hbad
  have refused : decode w = .error (.reservedField op) := by
    rw [decodes w hop, withZeros_of_ne _ (caught w hbad), show w.opField = op from hop]
  unfold presentWord
  rw [refused]
  rfl

/-! ### CRC_PLD: its payload bytes, its length check, its completion (40_crc.md R127) -/

/-- Up to the buffer's length the model's byte list is the claims'. -/
theorem State.bytes_eq_bufBytes (s : State) (b : Buf) {n : Nat} (h : n ≤ 32) : s.bytes b n = bufBytes s b n := by
  rw [State.bytes, Config.bufN, Nat.min_eq_left h, bufBytes]

/-- A byte that has not been written since the reset is the free value of log 4. -/
theorem State.buf_of_unwritten (s : State) (b : Buf) {k : Nat} (h : s.mem.read (b.base + k) = none) :
    s.buf b k = Config.bufInit s.bufHist (b.base + k) := by
  rw [State.buf, State.readByte, h]
  rfl

theorem firstCause_crcPld_of_long (s : State) {n : Byte} (h : 32 < n.toNat) :
    s.firstCause (.crcPld n) = some .lenRange := by
  have out : ¬ n.toNat ≤ Config.bufN := Nat.not_le.2 h
  simp [State.firstCause, crcPldCause, out]

theorem firstCause_crcPld_of_fits (s : State) {n : Byte} (h : n.toNat ≤ 32) :
    s.firstCause (.crcPld n) = none := by
  have fits : n.toNat ≤ Config.bufN := h
  simp [State.firstCause, crcPldCause, fits]

/-- The completion of a legal CRC_PLD (40_crc.md R127). -/
theorem exec_crcPld_completes {s : State} {p : Pending} {n : Byte} (hp : s.pend = some p) (hn : n.toNat ≤ 32) :
    exec (.crcPld n) s =
      .next (completed { s with crcRem := crcFold s.crcRem (bufBytes s .pld n.toNat) }) := by
  rw [exec_completes hp, effectsOf, crcPldEffect, State.setRem, s.bytes_eq_bufBytes .pld hn]

/-! ### The statements -/

/-- Settles O15: one fixed word, the mask of its opcode, no operand check, and the effect. -/
theorem crcClrClearsRemainder : Obligations.CrcClrClearsRemainder := by
  refine ⟨⟨rfl, rfl⟩, ?_, alwaysAccepted_of_no_cause fun _ => rfl, fun _ _ => exec_completes⟩
  exact rejectsReserved_of_mask (fun _ => decode_crcClr) fun _ => and_ne_zero_of_field_ne (by decide)

/-- Settles O16: as CRC_CLR, with the byte as an operand; the corner cases are `T[0] = 0`. -/
theorem crcByteFoldsOneByte : Obligations.CrcByteFoldsOneByte := by
  refine ⟨encodedAs_crcByte, ?_, fun _ => alwaysAccepted_of_no_cause fun _ => rfl,
    fun _ _ _ => exec_completes, fun _ _ => rfl, crcTable_xor_self _, crcTable_xor_self,
    by decide +kernel, by decide +kernel, by decide +kernel⟩
  exact rejectsReserved_of_mask (fun _ => decode_crcByte) fun _ => and_ne_zero_of_field_ne (by decide)

/-- Settles O17: the two reserved fields are covered by one mask; the length check parts the idle cases; no payload
byte leaves the remainder as it was. -/
theorem crcPldFoldsPayload : Obligations.CrcPldFoldsPayload := by
  refine ⟨encodedAs_crcPld, ?_, fun s n idle long => exec_rejects idle (firstCause_crcPld_of_long s long),
    fun s n idle fits => exec_accepts idle (firstCause_crcPld_of_fits s fits),
    fun _ _ _ => exec_crcPld_completes, ?_, fun s k => s.buf_of_unwritten .pld, by decide +kernel⟩
  · refine rejectsReserved_of_mask (fun _ => decode_crcPld) fun w bad => ?_
    rcases bad with low | high
    · exact and_ne_zero_of_field_ne (by decide) low
    · exact and_ne_zero_of_field_ne (by decide) high
  · intro s p hp
    exact exec_crcPld_completes hp (by decide)

end Sys2Proof.Machine
end

section
/-! PROOF. The words of the framing commands, both ways, and the words of their opcodes that the decoder or a
command's acceptance refuses for a reserved field (30_encoding.md R91 to R94; 41_framing.md R140, R142, R144, R146). -/

namespace Sys2Proof.Laws

open Sys2Proof.Claims

/-! ### Decoding by opcode -/

theorem decode_frameData {w : Word} (h : Word.opField w = 0x4) :
    decode w = withZeros w 0xFF0000E0 (.frameData (Word.sub0 w) (Word.seqField w) (Word.lenField w)) := by
  unfold decode
  rw [h]
  rfl

theorem decode_frameAck {w : Word} (h : Word.opField w = 0x5) :
    decode w = withZeros w 0xFFFF00E0 (.frameAck (Kind.ofBit (Word.sub0 w)) (Word.seqField w)) := by
  unfold decode
  rw [h]
  rfl

theorem decode_frameSwtag {w : Word} (h : Word.opField w = 0x6) :
    decode w = withZeros w 0xFFFF00C0
      (.frameSwtag (Kind.ofBit (Word.sub0 w)) (Word.sub1 w) (Word.seqField w)) := by
  unfold decode
  rw [h]
  rfl

theorem decode_frameTeardown {w : Word} (h : Word.opField w = 0x7) :
    decode w = withZeros w 0xFFFFFFF0 .frameTeardown := by
  unfold decode
  rw [h]
  rfl

/-! ### The flags in `SUB` -/

@[simp] theorem Kind.ofBit_bit (k : Kind) : Kind.ofBit k.bit = k := by cases k <;> rfl

theorem Kind.bit_eq_decide (k : Kind) : k.bit = decide (k = .nak) := by cases k <;> rfl

section
variable (op : BitVec 4) (sub1 sub0 : Bool) (seq len data : Byte)

theorem sub0_assemble : Word.sub0 (assemble op (subField sub1 sub0) seq len data) = sub0 := calc
  _ = (data ++ len ++ seq ++ subField sub1 sub0).getLsbD 0 := getLsbD_append_high _ op 0 4 rfl
  _ = (subField sub1 sub0).getLsbD 0 := by rw [BitVec.getLsbD_append, if_pos (by decide)]
  _ = sub0 := by cases sub1 <;> cases sub0 <;> rfl

theorem sub1_assemble : Word.sub1 (assemble op (subField sub1 sub0) seq len data) = sub1 := calc
  _ = (data ++ len ++ seq ++ subField sub1 sub0).getLsbD 1 := getLsbD_append_high _ op 1 5 rfl
  _ = (subField sub1 sub0).getLsbD 1 := by rw [BitVec.getLsbD_append, if_pos (by decide)]
  _ = sub1 := by cases sub1 <;> cases sub0 <;> rfl

end

/-- A one-bit field that is 0 is a clear bit. -/
theorem getLsbD_of_field_eq_zero {w : Word} {k : Nat} (h : field w k 1 = 0) : w.getLsbD k = false := by
  have clear : w.extractLsb' k 1 = 0#1 := BitVec.eq_of_toNat_eq h
  simpa using congrArg (BitVec.getLsbD · 0) clear

theorem seqField_ne_zero {w : Word} (h : field w 8 8 ≠ 0) : Word.seqField w ≠ 0 :=
  fun zero => h (congrArg BitVec.toNat zero)

/-! ### The words -/

/-- A mask that misses every field of an assembled word leaves nothing. -/
theorem assemble_and_eq_zero {op sub op' sub' : BitVec 4} {seq len data seq' len' data' : Byte}
    (hop : op &&& op' = 0) (hsub : sub &&& sub' = 0) (hseq : seq &&& seq' = 0) (hlen : len &&& len' = 0)
    (hdata : data &&& data' = 0) :
    assemble op sub seq len data &&& assemble op' sub' seq' len' data' = 0 := by
  rw [assemble_and, hop, hsub, hseq, hlen, hdata]
  rfl

/-- A word whose masked bits are 0 and whose fields give the command back. -/
theorem encodedAs_of_decode {i j : Instr} {w zeros : Word} (word : encode i = w)
    (decodes : decode (encode i) = withZeros (encode i) zeros j) (clear : encode i &&& zeros = 0)
    (reads : j = i) : EncodedAs i w := by
  refine ⟨word, ?_⟩
  rw [← word, decodes, withZeros_eq_ok]
  exact ⟨clear, reads⟩

theorem encodedAs_frameData (h : Bool) (q n : Byte) :
    EncodedAs (.frameData h q n) (0#8 ++ n ++ q ++ 0#3 ++ BitVec.ofBool h ++ 0x4#4) := by
  have word : encode (.frameData h q n) = 0#8 ++ n ++ q ++ 0#3 ++ BitVec.ofBool h ++ 0x4#4 :=
    calc encode (.frameData h q n)
        = 0#8 ++ n ++ q ++ (0#3 ++ BitVec.ofBool h) ++ 0x4#4 := by cases h <;> rfl
      _ = 0#8 ++ n ++ q ++ 0#3 ++ BitVec.ofBool h ++ 0x4#4 := congrArg (· ++ 0x4#4) BitVec.append_assoc.symm
  have clear : encode (.frameData h q n) &&& 0xFF0000E0 = 0 :=
    assemble_and_eq_zero (op' := 0) (sub' := 0xE) (data' := 0xFF) rfl (by cases h <;> rfl)
      BitVec.and_zero BitVec.and_zero rfl
  refine encodedAs_of_decode word (decode_frameData (OpField.frameData h q n)) clear ?_
  rw [encode, sub0_assemble, seqField_assemble, lenField_assemble]

/-- The word of FRAME_ACK and FRAME_NAK; `SUB` is `KIND`. -/
theorem encodedAs_frameAck (k : Kind) (q : Byte) :
    EncodedAs (.frameAck k q) (0#16 ++ q ++ (subField false k.bit ++ 0x5#4)) := by
  have word : encode (.frameAck k q) = 0#16 ++ q ++ (subField false k.bit ++ 0x5#4) :=
    BitVec.append_assoc (x₁ := 0#16 ++ q)
  have clear : encode (.frameAck k q) &&& 0xFFFF00E0 = 0 :=
    assemble_and_eq_zero (op' := 0) (sub' := 0xE) (len' := 0xFF) (data' := 0xFF) rfl (by cases k <;> rfl)
      BitVec.and_zero rfl rfl
  refine encodedAs_of_decode word (decode_frameAck (OpField.frameAck k q)) clear ?_
  rw [encode, sub0_assemble, seqField_assemble, Kind.ofBit_bit]

theorem encodedAs_frameSwtag (k : Kind) (h : Bool) (q : Byte) :
    EncodedAs (.frameSwtag k h q)
      (0#16 ++ q ++ 0#2 ++ BitVec.ofBool h ++ BitVec.ofBool (k = .nak) ++ 0x6#4) := by
  have word : encode (.frameSwtag k h q) =
      0#16 ++ q ++ 0#2 ++ BitVec.ofBool h ++ BitVec.ofBool (k = .nak) ++ 0x6#4 := by
    rw [← Kind.bit_eq_decide]
    calc encode (.frameSwtag k h q)
        = 0#16 ++ q ++ (0#2 ++ BitVec.ofBool h ++ BitVec.ofBool k.bit) ++ 0x6#4 := rfl
      _ = 0#16 ++ q ++ (0#2 ++ BitVec.ofBool h) ++ BitVec.ofBool k.bit ++ 0x6#4 :=
          congrArg (· ++ 0x6#4) BitVec.append_assoc.symm
      _ = 0#16 ++ q ++ 0#2 ++ BitVec.ofBool h ++ BitVec.ofBool k.bit ++ 0x6#4 :=
          congrArg (· ++ BitVec.ofBool k.bit ++ 0x6#4) BitVec.append_assoc.symm
  have clear : encode (.frameSwtag k h q) &&& 0xFFFF00C0 = 0 :=
    assemble_and_eq_zero (op' := 0) (sub' := 0xC) (len' := 0xFF) (data' := 0xFF) rfl
      (by cases h <;> cases k <;> rfl) BitVec.and_zero rfl rfl
  refine encodedAs_of_decode word (decode_frameSwtag (OpField.frameSwtag k h q)) clear ?_
  rw [encode, sub0_assemble, sub1_assemble, seqField_assemble, Kind.ofBit_bit]

end Sys2Proof.Laws
end

section
/-! PROOF. The framer's commands: their acceptance checks, the frame each builds in `TXF`, and that INJECT refuses the
teardown frame (41_framing.md R140 to R147). -/

namespace Sys2Proof.Machine

open Sys2Proof.Claims Sys2Proof.Laws

/-! ### Acceptance (30_encoding.md R94, R95; 60_exceptions.md R202) -/

/-- An opcode rejects a word with RSVD_FIELD where the decoder's mask catches it, or where its command's own check
does: the conditional zero of `SEQ` (R94). -/
theorem rejectsReserved_of_mask_or_cause {op : BitVec 4} {zeros : Word} {i : Word → Instr} {bad : Word → Prop}
    (decodes : ∀ w : Word, Word.opField w = op → decode w = withZeros w zeros (i w))
    (opcode : ∀ w, (i w).opcode = op)
    (caught : ∀ w, bad w → w &&& zeros ≠ 0 ∨ ∀ s : State, s.firstCause (i w) = some .rsvdField) :
    RejectsReserved op bad := by
  intro s w idle hop hbad
  by_cases masked : w &&& zeros = 0
  · have decoded : decode w = .ok (i w) := by
      rw [decodes w hop, withZeros_eq_ok]
      exact ⟨masked, rfl⟩
    have cause := (caught w hbad).resolve_left (not_not_intro masked) s
    unfold presentWord
    rw [decoded, ← opcode w]
    exact exec_rejects idle cause
  · exact rejectsReserved_of_mask decodes (fun _ hit => hit) s w idle hop masked

/-- A check and the condition on which it fails. -/
theorem causeUnless_eq_ite {ok : Bool} {fails : Prop} [Decidable fails] (h : ok = true ↔ ¬ fails) (c : Cause) :
    causeUnless ok c = if fails then some c else none := by
  by_cases f : fails <;> simp [causeUnless, h, f]

/-- The conditional zero holds with a sequence byte, and without one for `SEQ = 0` only. -/
theorem seqFieldFits_iff {h : Bool} {q : Byte} : seqFieldFits h q = true ↔ h = true ∨ q = 0 := by
  simp [seqFieldFits]

theorem seqFieldFits_of_stray_seq {w : Word} {k : Nat} (hasSeq : field w k 1 = 0) (seq : field w 8 8 ≠ 0) :
    seqFieldFits (w.getLsbD k) (Word.seqField w) = false := by
  rw [getLsbD_of_field_eq_zero hasSeq]
  exact beq_eq_false_iff_ne.2 (seqField_ne_zero seq)

theorem firstCause_frameData_of_misfit (s : State) {h : Bool} {q : Byte} (n : Byte)
    (misfit : seqFieldFits h q = false) : s.firstCause (.frameData h q n) = some .rsvdField := by
  simp [State.firstCause, frameDataCause, misfit]

/-- Once `SEQ` fits, the length check decides alone. -/
theorem firstCause_frameData_of_fits (s : State) {h : Bool} {q : Byte} (n : Byte) (fits : h = true ∨ q = 0) :
    s.firstCause (.frameData h q n) =
      if n.toNat < 1 ∨ 31 - h.toNat < n.toNat then some .lenRange else none := by
  have inRange : decide (1 ≤ n.toNat ∧ n.toNat ≤ 31 - h.toNat) = true ↔
      ¬ (n.toNat < 1 ∨ 31 - h.toNat < n.toNat) := by
    rw [decide_eq_true_iff]
    omega
  rw [State.firstCause, frameDataCause, seqFieldFits_iff.2 fits]
  exact causeUnless_eq_ite inRange .lenRange

theorem firstCause_frameSwtag_of_misfit (s : State) (k : Kind) {h : Bool} {q : Byte}
    (misfit : seqFieldFits h q = false) : s.firstCause (.frameSwtag k h q) = some .rsvdField := by
  simp [State.firstCause, frameSwtagCause, misfit]

/-- `SEQ[7:1] = 0` says that `SEQ` is 0 or 1. -/
theorem extractLsb'_high_seven_eq_zero_iff (q : Byte) : q.extractLsb' 1 7 = 0 ↔ q.toNat ≤ 1 := by
  rw [← BitVec.toNat_inj]
  simp only [BitVec.extractLsb'_toNat, Nat.shiftRight_eq_div_pow, BitVec.ofNat_eq_ofNat, BitVec.toNat_ofNat]
  omega

theorem firstCause_frameSwtag_seq (s : State) (k : Kind) (q : Byte) :
    s.firstCause (.frameSwtag k true q) = if 1 < q.toNat then some .seqRange else none := by
  have inRange : (q.extractLsb' 1 7 == 0) = true ↔ ¬ 1 < q.toNat := by
    rw [beq_iff_eq, extractLsb'_high_seven_eq_zero_iff, Nat.not_lt]
  exact causeUnless_eq_ite inRange .seqRange

/-- A command with one check: rejected where it fails, accepted elsewhere. -/
theorem exec_of_check {i : Instr} {s : State} {c : Cause} {fails : Prop} [Decidable fails] (idle : s.pend = none)
    (check : s.firstCause i = if fails then some c else none) :
    exec i s = .next (if fails then rejected s c.code i.opcode else accepted s (encode i)) := by
  by_cases h : fails
  · rw [if_pos h] at check ⊢
    exact exec_rejects idle check
  · rw [if_neg h] at check ⊢
    exact exec_accepts idle check

/-- INJECT refuses the teardown frame (42_check_and_test.md R166). -/
theorem firstCause_inject_of_teardown {s : State} (len : s.txlen = 4) (frame : s.bytes .txf 4 = teardownFrame) :
    s.firstCause .inject = some .injTeardown := by
  simp [State.firstCause, injectCause, txlenCause, len, frame]

/-! ### Completion (41_framing.md R147) -/

/-- A built frame reads back from `TXF`. -/
theorem State.bytes_putFrame (s : State) {frame : List Byte} (h : frame.length ≤ 32) :
    (s.putFrame frame).bytes .txf frame.length = frame := by
  refine List.ext_getElem (by simpa using h) fun k _ hk => ?_
  simp [State.bytes, State.putFrame_buf s frame k hk h, hk]

/-- A command whose effect is to put a frame that `TXF` can hold. -/
theorem buildsFrame_of_effects {i : Instr} {s : State} {p : Pending} {frame : List Byte} (hp : s.pend = some p)
    (effect : effectsOf i s = s.putFrame frame) (fits : frame.length ≤ 32) : BuildsFrame i s frame :=
  ⟨completed (s.putFrame frame), effect ▸ exec_completes hp, rfl,
    fun k hk => s.putFrame_buf frame k hk fits, fun a ha => s.putFrame_readByte frame a ha⟩

@[simp] theorem length_withCrc (body : List Byte) : (withCrc body).length = body.length + 1 := by
  simp [withCrc]

@[simp] theorem length_bufBytes (s : State) (b : Buf) (n : Nat) : (bufBytes s b n).length = n := by
  simp [bufBytes]

@[simp] theorem length_seqBytes (h : Bool) (q : Byte) : (seqBytes h q).length = h.toNat := by
  cases h <;> rfl

theorem text_eq_kindText (k : Kind) : text k = Kind.text k := by cases k <;> rfl

theorem length_dataFrame (h : Bool) (q : Byte) (payload : List Byte) :
    (dataFrame h q payload).length = payload.length + 1 + h.toNat := by
  simp [dataFrame]
  omega

@[simp] theorem length_ackFrame (k : Kind) (q : Byte) : (ackFrame k q).length = 5 := by cases k <;> rfl

@[simp] theorem length_tagFrame (k : Kind) (h : Bool) (q : Byte) :
    (tagFrame k h q).length = 4 + h.toNat := by
  cases k <;> cases h <;> rfl

theorem frameData_builds {s : State} {p : Pending} {h : Bool} (q : Byte) {n : Byte} (hp : s.pend = some p)
    (hn : n.toNat ≤ 31 - h.toNat) :
    BuildsFrame (.frameData h q n) s (dataFrame h q (bufBytes s .pld n.toNat)) := by
  have short := Bool.toNat_le h
  refine buildsFrame_of_effects hp ?_ ?_
  · rw [← s.bytes_eq_bufBytes .pld (by omega)]
    rfl
  · rw [length_dataFrame, length_bufBytes]
    omega

theorem frameAck_builds {s : State} {p : Pending} (k : Kind) (q : Byte) (hp : s.pend = some p) :
    BuildsFrame (.frameAck k q) s (ackFrame k q) :=
  buildsFrame_of_effects hp rfl (by simp)

theorem frameSwtag_builds {s : State} {p : Pending} (k : Kind) (h : Bool) (q : Byte) (hp : s.pend = some p) :
    BuildsFrame (.frameSwtag k h q) s (tagFrame k h q) :=
  buildsFrame_of_effects hp rfl (by cases h <;> simp)

/-- A data frame around an acknowledgment's text is the acknowledgment (41_framing.md R140). -/
theorem exec_frameData_of_text {s : State} {p : Pending} {k : Kind} (q : Byte) (hp : s.pend = some p)
    (payload : bufBytes s .pld 3 = text k) : exec (.frameData true q 3) s = exec (.frameAck k q) s := by
  have bytes : s.bytes .pld (3 : Byte).toNat = Kind.text k :=
    (s.bytes_eq_bufBytes .pld (by decide)).trans (payload.trans (text_eq_kindText k))
  rw [exec_completes hp, exec_completes hp, effectsOf, effectsOf, frameDataEffect, bytes]
  rfl

/-- After FRAME_TEARDOWN, INJECT is refused. -/
theorem exec_inject_after_teardown {s t : State} {p : Pending} (hp : s.pend = some p)
    (built : exec .frameTeardown s = .next t) : exec .inject t = .next (rejected t 5 0x9) := by
  rw [exec_completes hp] at built
  obtain rfl := Host.Outcome.next.inj built
  have frame := s.bytes_putFrame (frame := teardownFrame) (by decide)
  exact exec_rejects (s := completed (s.putFrame teardownFrame)) rfl (firstCause_inject_of_teardown rfl frame)

/-! ### The statements -/

/-- Settles O18: `SEQ` without HAS_SEQ is caught at acceptance, then the length check decides; the frame is a body and
its CRC, which folds to 0. -/
theorem frameDataBuildsDataFrame : Obligations.FrameDataBuildsDataFrame := by
  obtain ⟨-, -, leadingZero, -⟩ := foldComposes
  refine ⟨encodedAs_frameData, ?_,
    fun s h q n idle fits => exec_of_check idle (firstCause_frameData_of_fits s n fits), ?_, leadingZero, ?_,
    by decide +kernel⟩
  · refine rejectsReserved_of_mask_or_cause (fun _ => decode_frameData) (fun _ => rfl) fun w bad => ?_
    rcases bad with sub | data | ⟨hasSeq, seq⟩
    · exact .inl (and_ne_zero_of_field_ne (by decide) sub)
    · exact .inl (and_ne_zero_of_field_ne (by decide) data)
    · exact .inr fun s => firstCause_frameData_of_misfit s _ (seqFieldFits_of_stray_seq hasSeq seq)
  · intro s p h q n hp _ hn
    have length := length_dataFrame h q (bufBytes s .pld n.toNat)
    rw [length_bufBytes] at length
    exact ⟨frameData_builds q hp hn, length, appendedCrcFoldsToZero _⟩
  · rintro s k q t u ⟨p, hp⟩ payload data ack
    exact Host.Outcome.next.inj (data.symm.trans ((exec_frameData_of_text q hp payload).trans ack))

/-- Settles O19: no operand check; the frame is a body and its CRC, which folds to 0. -/
theorem frameAckBuildsGenuineAck : Obligations.FrameAckBuildsGenuineAck := by
  refine ⟨fun q => ⟨encodedAs_frameAck .ack q, encodedAs_frameAck .nak q⟩, ?_,
    fun k q => alwaysAccepted_of_no_cause fun _ => rfl, ?_, by decide +kernel, by decide +kernel⟩
  · refine rejectsReserved_of_mask (fun _ => decode_frameAck) fun w bad => ?_
    rcases bad with sub | len | data
    · exact and_ne_zero_of_field_ne (by decide) sub
    · exact and_ne_zero_of_field_ne (by decide) len
    · exact and_ne_zero_of_field_ne (by decide) data
  · intro s p k q hp
    rw [text_eq_kindText]
    exact ⟨frameAck_builds k q hp, appendedCrcFoldsToZero _⟩

/-- Settles O20: `SEQ` without HAS_SEQ is caught at acceptance, then the range of `SEQ` decides; the six frames are
values of `tagFrame`. -/
theorem frameSwtagBuildsTagFrame : Obligations.FrameSwtagBuildsTagFrame := by
  refine ⟨encodedAs_frameSwtag, ?_, fun s k q idle => exec_of_check idle (firstCause_frameSwtag_seq s k q),
    fun k => alwaysAccepted_of_no_cause fun _ => rfl, ?_, ?_⟩
  · refine rejectsReserved_of_mask_or_cause (fun _ => decode_frameSwtag) (fun _ => rfl) fun w bad => ?_
    rcases bad with sub | len | data | ⟨hasSeq, seq⟩
    · exact .inl (and_ne_zero_of_field_ne (by decide) sub)
    · exact .inl (and_ne_zero_of_field_ne (by decide) len)
    · exact .inl (and_ne_zero_of_field_ne (by decide) data)
    · exact .inr fun s => firstCause_frameSwtag_of_misfit s _ (seqFieldFits_of_stray_seq hasSeq seq)
  · intro s p hp
    exact ⟨frameSwtag_builds .ack false 0 hp, frameSwtag_builds .nak false 0 hp,
      frameSwtag_builds .ack true 0 hp, frameSwtag_builds .ack true 1 hp,
      frameSwtag_builds .nak true 0 hp, frameSwtag_builds .nak true 1 hp⟩
  · decide +kernel

/-- Settles O21: one fixed word and frame; INJECT reads the frame back from `TXF` and refuses it. -/
theorem frameTeardownBuildsSentinel : Obligations.FrameTeardownBuildsSentinel := by
  refine ⟨⟨rfl, rfl⟩, ?_, alwaysAccepted_of_no_cause fun _ => rfl,
    fun s p hp => buildsFrame_of_effects hp rfl (by decide), fun _ _ _ => exec_inject_after_teardown,
    by decide +kernel, by decide +kernel, by decide +kernel⟩
  exact rejectsReserved_of_mask (fun _ => decode_frameTeardown) fun _ => and_ne_zero_of_field_ne (by decide)

end Sys2Proof.Machine
end

section
/-! PROOF. The checker and the test hooks: what CHECK reports of a received frame, the one byte INJECT changes and what
that does to the fold, and the copy LOOPBACK makes (42_check_and_test.md R160, R161, R166, R167). -/

namespace Sys2Proof.Laws

/-! ### Decoding by opcode (30_encoding.md R92, R93) -/

theorem decode_check {w : Word} (h : Word.opField w = 0x8) :
    decode w = withZeros w 0xFFFFFFE0 (.check (Word.sub0 w)) := by
  unfold decode
  rw [h]
  rfl

theorem decode_inject {w : Word} (h : Word.opField w = 0x9) : decode w = withZeros w 0xFFFFFFF0 .inject := by
  unfold decode
  rw [h]
  rfl

theorem decode_loopback {w : Word} (h : Word.opField w = 0xA) :
    decode w = withZeros w 0xFFFFFFF0 .loopback := by
  unfold decode
  rw [h]
  rfl

end Sys2Proof.Laws

namespace Sys2Proof.Machine

open Sys2Proof.Claims Sys2Proof.Laws

/-! ### Acceptance (30_encoding.md R95) -/

/-- A command with two checks: the first that fails decides (60_exceptions.md R202). -/
theorem exec_of_two_checks {i : Instr} {s : State} {c d : Cause} {fails₁ fails₂ : Prop} [Decidable fails₁]
    [Decidable fails₂] (idle : s.pend = none)
    (checks : s.firstCause i = if fails₁ then some c else if fails₂ then some d else none) :
    exec i s = .next (if fails₁ then rejected s c.code i.opcode
      else if fails₂ then rejected s d.code i.opcode else accepted s (encode i)) := by
  by_cases h : fails₁
  · rw [if_pos h] at checks ⊢
    exact exec_rejects idle checks
  · rw [if_neg h] at checks ⊢
    exact exec_of_check idle checks

theorem firstCause_check (s : State) (h : Bool) :
    s.firstCause (.check h) =
      if s.rxlen.toNat < 1 + h.toNat ∨ 32 < s.rxlen.toNat then some .lenRange else none := by
  have inRange : decide (1 + h.toNat ≤ s.rxlen.toNat ∧ s.rxlen.toNat ≤ 32) = true ↔
      ¬ (s.rxlen.toNat < 1 + h.toNat ∨ 32 < s.rxlen.toNat) := by
    rw [decide_eq_true_iff]
    omega
  exact causeUnless_eq_ite inRange .lenRange

/-- The check INJECT and LOOPBACK share. -/
theorem txlenCause_eq_ite (s : State) :
    txlenCause s = if s.txlen.toNat < 2 then some .lenRange else none :=
  causeUnless_eq_ite (decide_eq_true_iff.trans Nat.not_lt.symm) .lenRange

theorem firstCause_inject (s : State) :
    s.firstCause .inject =
      if s.txlen.toNat < 2 then some .lenRange
      else if s.txlen = 4 ∧ bufBytes s .txf 4 = teardownFrame then some .injTeardown else none := by
  have noTeardown : (!(s.txlen == 4 && s.bytes .txf 4 == teardownFrame)) = true ↔
      ¬ (s.txlen = 4 ∧ bufBytes s .txf 4 = teardownFrame) := by
    rw [s.bytes_eq_bufBytes .txf (by decide)]
    rw [Bool.not_eq_true', ← Bool.not_eq_true, Bool.and_eq_true, beq_iff_eq, beq_iff_eq]
  rw [State.firstCause, injectCause, txlenCause_eq_ite, causeUnless_eq_ite noTeardown]
  split <;> rfl

/-! ### The bytes of a buffer -/

theorem bufBytes_succ (s : State) (b : Buf) (n : Nat) : bufBytes s b (n + 1) = bufBytes s b n ++ [s.buf b n] := by
  simp [bufBytes, List.range_succ]

theorem getD_bufBytes (s : State) (b : Buf) {n k : Nat} (h : k < n) : (bufBytes s b n).getD k 0 = s.buf b k := by
  simp [bufBytes, h]

theorem bufBytes_congr {s t : State} (b : Buf) {n : Nat} (h : ∀ k, k < n → t.buf b k = s.buf b k) :
    bufBytes t b n = bufBytes s b n :=
  List.map_congr_left fun k hk => h k (List.mem_range.1 hk)

/-- A byte sequence written to a buffer reads back. -/
theorem State.putBytes_buf (s : State) (b : Buf) {vs : List Byte} {k : Nat} (hk : k < vs.length)
    (h : vs.length ≤ 32) : (s.putBytes b vs).buf b k = vs.getD k 0 := by
  have read := Memory.read_setBytes s.mem b 0 k vs hk (by omega)
  rw [Nat.zero_add] at read
  exact congrArg (Option.getD · _) read

theorem State.putBytes_readByte (s : State) (b : Buf) (vs : List Byte) {a : Nat}
    (h : ¬ (b.base ≤ a ∧ a < b.base + vs.length)) : (s.putBytes b vs).readByte a = s.readByte a :=
  State.readByte_congr a (Memory.read_setBytes_other _ _ _ _ _ h) rfl

/-! ### CHECK (42_check_and_test.md R160 to R164) -/

theorem checkFrame_of_teardown (h : Bool) {len : Byte} {f : List Byte} (match4 : len = 4 ∧ f = teardownFrame) :
    checkFrame h len f = ⟨false, true, false, false, ⟨0, 0, 0⟩⟩ := by
  obtain ⟨rfl, rfl⟩ := match4
  rfl

theorem checkFrame_of_not_teardown (h : Bool) {len : Byte} {f : List Byte}
    (noMatch : ¬ (len = 4 ∧ f = teardownFrame)) :
    checkFrame h len f =
      ⟨crc8 f == 0, false, payloadOf h f == Kind.text .ack, payloadOf h f == Kind.text .nak,
        ⟨if h then f.headD 0 else 0, BitVec.ofNat 8 h.toNat, len - 1 - BitVec.ofNat 8 h.toNat⟩⟩ :=
  if_neg (by simpa using noMatch)

/-- The payload window by position: the trailer goes first, then the sequence byte. -/
theorem payloadOf_eq_drop_take (h : Bool) (f : List Byte) :
    payloadOf h f = (f.take (f.length - 1)).drop h.toNat := by
  have count : f.length - h.toNat - 1 = f.length - 1 - h.toNat := by omega
  rw [payloadOf, List.dropLast_eq_take, List.length_drop, List.drop_take, count]

/-- The payload length of R163 does not wrap where CHECK is legal. -/
theorem payloadLength_eq_ofNat {len : Byte} {h : Bool} (legal : 1 + h.toNat ≤ len.toNat) :
    len - 1 - BitVec.ofNat 8 h.toNat = BitVec.ofNat 8 (len.toNat - 1 - h.toNat) := by
  have short := Bool.toNat_le h
  bv_omega

theorem headD_bufBytes (s : State) (b : Buf) {n : Nat} (h : 0 < n) : (bufBytes s b n).headD 0 = s.buf b 0 := by
  rw [List.headD_eq_head?_getD, List.head?_eq_getElem?, ← List.getD_eq_getElem?_getD, getD_bufBytes s b h]

/-- A byte alone folds to its table entry, which is 0 for the byte 0 only. -/
theorem crc8_singleton_eq_zero_iff (b : Byte) : crc8 [b] = 0 ↔ b = 0 := by
  have fold : crc8 [b] = crcTable b := congrArg crcTable BitVec.xor_zero
  rw [fold]
  exact crcTable_eq_zero_iff b

/-- Settles O23: the mask of its opcode, the check on `RXLEN`, and the two branches of the decode with the model's
payload window and length written by position. -/
theorem checkDecodesReceivedFrame : Obligations.CheckDecodesReceivedFrame := by
  refine ⟨⟨rfl, rfl⟩, ⟨rfl, rfl⟩, ?_, fun s h idle => exec_of_check idle (firstCause_check s h), ?_,
    crc8_singleton_eq_zero_iff⟩
  · refine rejectsReserved_of_mask (fun _ => decode_check) fun w bad => ?_
    rcases bad with sub | rest
    · exact and_ne_zero_of_field_ne (by decide) sub
    · exact and_ne_zero_of_field_ne (by decide) rest
  · intro s p h hp low high
    have len4 : s.rxlen = 4 ↔ s.rxlen.toNat = 4 := BitVec.toNat_inj.symm
    have nonempty : 0 < s.rxlen.toNat := by omega
    dsimp only
    rw [exec_completes hp, effectsOf, checkEffect, State.rxFrame, s.bytes_eq_bufBytes .rxf high]
    split
    next found =>
      obtain ⟨len, frame⟩ := found
      rw [checkFrame_of_teardown h ⟨len4.2 len, frame⟩]
      rfl
    next noMatch =>
      rw [checkFrame_of_not_teardown h fun ⟨len, frame⟩ => noMatch ⟨len4.1 len, frame⟩, payloadOf_eq_drop_take,
        length_bufBytes, payloadLength_eq_ofNat low, headD_bufBytes s .rxf nonempty]
      simp only [beq_eq_decide]
      cases h <;> rfl

/-! ### INJECT (42_check_and_test.md R166) -/

/-- What INJECT leaves of every byte: the mask on the second-to-last byte of the frame. -/
theorem injectEffect_readByte {s : State} (fits : s.txlen.toNat ≤ 32) (a : Nat) :
    (injectEffect s).readByte a =
      if a = 0x60 + (s.txlen.toNat - 2) then s.readByte a ^^^ 0x02 else s.readByte a := by
  have read := Memory.read_setBuf s.mem .txf (s.txlen.toNat - 2)
    (s.buf .txf (s.txlen.toNat - 2) ^^^ Config.injMask) a
  have inside : s.txlen.toNat - 2 < 32 := by omega
  by_cases ha : a = 0x60 + (s.txlen.toNat - 2)
  · subst ha
    rw [if_pos ⟨inside, rfl⟩] at read
    rw [if_pos rfl]
    exact congrArg (Option.getD · _) read
  · rw [if_neg fun h => ha h.2] at read
    rw [if_neg ha]
    exact State.readByte_congr a read rfl

/-- A mask on the second-to-last byte of a sequence passes through the table twice on its way to the fold. -/
theorem crc8_mask_second_last (front : List Byte) (b c mask : Byte) :
    crc8 (front ++ [b ^^^ mask, c]) = crc8 (front ++ [b, c]) ^^^ crcTable (crcTable mask) := by
  have bytes (r : Byte) : crcFold r [b ^^^ mask, c] = crcFold r [b, c] ^^^ crcTable (crcTable mask) := by
    simp only [crcFold_cons, crcFold_nil, crcTable_xor]
    ac_rfl
  unfold crc8
  rw [crcFold_append, crcFold_append, bytes]

/-- A frame that folded to 0 folds to `T[T[02]] = 2A` after INJECT. -/
theorem crc8_injectEffect {s : State} (low : 2 ≤ s.txlen.toNat) (fits : s.txlen.toNat ≤ 32)
    (valid : crc8 (bufBytes s .txf s.txlen.toNat) = 0) :
    crc8 (bufBytes (injectEffect s) .txf s.txlen.toNat) = 0x2A := by
  have byte := injectEffect_readByte fits
  obtain ⟨n, len⟩ := Nat.exists_eq_add_of_le' low
  rw [len, Nat.add_sub_cancel] at byte
  have front : bufBytes (injectEffect s) .txf n = bufBytes s .txf n :=
    bufBytes_congr .txf fun k hk => (byte _).trans (if_neg (by simp only [Buf.base]; omega))
  have flipped : (injectEffect s).buf .txf n = s.buf .txf n ^^^ 0x02 := (byte _).trans (if_pos rfl)
  have trailer : (injectEffect s).buf .txf (n + 1) = s.buf .txf (n + 1) :=
    (byte _).trans (if_neg (by simp only [Buf.base]; omega))
  have delta : crcTable (crcTable 0x02) = 0x2A := by decide +kernel
  rw [len, bufBytes_succ, bufBytes_succ, List.append_assoc, List.singleton_append] at valid ⊢
  rw [front, flipped, trailer, crc8_mask_second_last, valid, delta]
  rfl

/-- INJECT twice leaves every byte as it was. -/
theorem injectEffect_twice_readByte {s t : State} (fits : s.txlen.toNat ≤ 32) (len : t.txlen = s.txlen)
    (once : ∀ a, t.readByte a = (injectEffect s).readByte a) (a : Nat) :
    (injectEffect t).readByte a = s.readByte a := by
  rw [injectEffect_readByte (len ▸ fits), len, once, injectEffect_readByte fits]
  split
  · rw [BitVec.xor_assoc, BitVec.xor_self, BitVec.xor_zero]
  · rfl

/-- Settles O25: two acceptance checks in order; the completion is one masked byte, from which the fold and the second
INJECT follow. The mask turns the last letter of a tag frame's text into one of neither text. -/
theorem injectFlipsOneBit : Obligations.InjectFlipsOneBit := by
  refine ⟨⟨rfl, rfl⟩, ?_, fun s idle => exec_of_two_checks idle (firstCause_inject s), ?_, ?_⟩
  · exact rejectsReserved_of_mask (fun _ => decode_inject) fun _ => and_ne_zero_of_field_ne (by decide)
  · intro s p hp low fits
    have byte := injectEffect_readByte fits
    refine ⟨completed (injectEffect s), exec_completes hp, rfl, (byte _).trans (if_pos rfl),
      fun a ha => (byte a).trans (if_neg ha), crc8_injectEffect low fits, _, exec_completes rfl, ?_⟩
    exact injectEffect_twice_readByte (t := { completed (injectEffect s) with pend := some p }) fits rfl fun _ => rfl
  · decide +kernel

/-! ### LOOPBACK (42_check_and_test.md R167) -/

/-- Settles O26: one acceptance check; the completion is a sequence write of the transmit frame's bytes. -/
theorem loopbackCopiesFrame : Obligations.LoopbackCopiesFrame := by
  refine ⟨⟨rfl, rfl⟩, ?_, fun s idle => exec_of_check (i := .loopback) idle (txlenCause_eq_ite s), ?_⟩
  · exact rejectsReserved_of_mask (fun _ => decode_loopback) fun _ => and_ne_zero_of_field_ne (by decide)
  · intro s p hp _ fits
    have frame : s.txFrame = bufBytes s .txf s.txlen.toNat := s.bytes_eq_bufBytes .txf fits
    have length : s.txFrame.length = s.txlen.toNat := frame ▸ length_bufBytes s .txf _
    refine ⟨completed (loopbackEffect s), exec_completes hp, rfl, fun k hk => ?_, fun a ha => ?_⟩
    · calc (s.putBytes .rxf s.txFrame).buf .rxf k
          = s.txFrame.getD k 0 := s.putBytes_buf .rxf (by omega) (by omega)
        _ = s.buf .txf k := by rw [frame, getD_bufBytes s .txf hk]
    · exact s.putBytes_readByte .rxf s.txFrame (by rw [length]; exact ha)

end Sys2Proof.Machine
end

section
/-! PROOF. The words of the control commands by opcode (30_encoding.md R92, R93, R96; 43_control.md R180 to R184). -/

namespace Sys2Proof.Laws

open Sys2Proof.Claims

theorem decode_nop {w : Word} (h : Word.opField w = 0x0) : decode w = withZeros w 0xFFFFFFF0 .nop := by
  unfold decode
  rw [h]
  rfl

theorem decode_tmrArm {w : Word} (h : Word.opField w = 0xB) : decode w = withZeros w 0xFFFFFFF0 .tmrArm := by
  unfold decode
  rw [h]
  rfl

theorem decode_tmrDisarm {w : Word} (h : Word.opField w = 0xC) :
    decode w = withZeros w 0xFFFFFFF0 .tmrDisarm := by
  unfold decode
  rw [h]
  rfl

theorem decode_retryClr {w : Word} (h : Word.opField w = 0xD) :
    decode w = withZeros w 0xFFFFFFF0 .retryClr := by
  unfold decode
  rw [h]
  rfl

/-- The reserved opcodes decode whatever the other bits hold (30_encoding.md R96). -/
theorem decode_reservedE {w : Word} (h : Word.opField w = 0xE) :
    decode w = .ok (.reservedE (w.extractLsb' 4 28)) := by
  unfold decode
  rw [h]
  rfl

theorem decode_reservedF {w : Word} (h : Word.opField w = 0xF) :
    decode w = .ok (.reservedF (w.extractLsb' 4 28)) := by
  unfold decode
  rw [h]
  rfl

/-- `OP` as the claims read it, a number, and as the decoder reads it. -/
theorem opField_eq_of_field {w : Word} {op : BitVec 4} (h : field w 0 4 = op.toNat) : Word.opField w = op :=
  BitVec.eq_of_toNat_eq h

end Sys2Proof.Laws
end

section
/-! PROOF. What a cycle's request adds to the cycle, and which parts of the state change only by the tick and by
completions: the timer counts the ticks of a run (60_exceptions.md R220, R221; 70_reset_and_hazards.md R251, R253). -/

namespace Sys2Proof.Machine

open Sys2Proof.Claims

/-! ### A cycle and its request -/

/-- A request whose effect and response are known adds them to the cycle. The update must not see the outputs of the
cycle it is added to. -/
theorem cycleAdds_of_requested {s : State} {x : Inputs} {q : Request} {f : State → State} {r : Response}
    (hq : Requests x q) (effect : ∀ u, s.requested x.tick (some q) u = f u) (answer : s.respond (some q) = r)
    (blind : ∀ u o p, ({ f { u with out := o } with out := p } : State) = { f u with out := p }) :
    CycleAdds s x f r := by
  obtain ⟨hrst, hreq⟩ := hq
  have hrun : ({ x with req := none } : Inputs).rst = false := hrst
  have out : s.outputs x = ⟨r, s.irq⟩ := by simp [State.outputs, hrst, hreq, answer]
  refine ⟨_, cycleWith_eq _ _, ?_⟩
  rw [cycleWith_eq, cycled_of_run s hrst, cycled_of_run s hrun, out, hreq, effect]
  exact congrArg Host.Outcome.next (blind _ _ _).symm

/-- The request that writes a word to `CMD`. -/
def cmdRequest (w : Word) : Request :=
  ⟨true, 0x08, w, 0xF⟩

theorem cmdRequest_target (w : Word) : (cmdRequest w).target = .cmd := rfl

/-- A `CMD` write passes the bus checks (20_memory.md R68). -/
theorem cmdRequest_busErr (w : Word) : (cmdRequest w).busErr = false := by
  have aligned : (cmdRequest w).addr.extractLsb' 0 2 = 0 := by simp [cmdRequest]
  have strobes : (cmdRequest w).wstrb = 0xF := rfl
  rw [Bool.eq_false_iff, Ne, Request.busErr_iff, cmdRequest_target]
  simp [aligned, strobes, Target.readOnly]

theorem State.respond_cmdRequest (s : State) (w : Word) : s.respond (some (cmdRequest w)) = ⟨0, false⟩ := by
  have hw : (cmdRequest w).write = true := rfl
  simp [State.respond, cmdRequest_busErr, hw]

/-- A `CMD` write to a busy block is an overrun with the word's `OP` (60_exceptions.md R204). -/
theorem requested_cmdRequest_of_busy {s : State} (busy : s.busy = true) (tick : Bool) (w : Word) (u : State) :
    s.requested tick (some (cmdRequest w)) u = overrun u 7 (Word.opField w) := by
  have hw : (cmdRequest w).write = true := rfl
  have strobes : (cmdRequest w).wstrb ≠ 0 := by simp [cmdRequest]
  have gated : Target.gated .cmd = true := rfl
  simp only [State.requested, hw, cmdRequest_busErr, cmdRequest_target, gated, busy, if_neg strobes,
    Bool.not_false, Bool.and_self, if_true]
  rfl

theorem cycleAdds_overrun_of_cmdRequest {s : State} {x : Inputs} {w : Word} (busy : s.busy = true)
    (hq : Requests x (cmdRequest w)) : CycleAdds s x (fun u => overrun u 7 (Word.opField w)) ⟨0, false⟩ :=
  cycleAdds_of_requested hq (requested_cmdRequest_of_busy busy x.tick w) (s.respond_cmdRequest w) fun _ _ _ => rfl

/-! ### Parts of the state that only the tick and completions write -/

/-- What `WrittenOnlyBy` says of a part of the state, for the part of a cycle that follows the tick: a part that the
tick itself may write. -/
structure WrittenAfterTickOnlyBy {α : Type} (f : State → α) (ops : List (BitVec 4)) : Prop where
  out : ∀ (s : State) (o : Outputs), f { s with out := o } = f s
  countDown : ∀ (s : State) (p : Pending), f (s.countDown p) = f s
  finish : ∀ s : State, f s.finish = f s
  effects : ∀ (i : Instr) (s : State), i.opcode ∉ ops → f (effectsOf i s) = f s
  accept : ∀ (s : State) (i : Instr), f (s.accept i) = f s
  raiseIllegal : ∀ (s : State) (c : Cause) (op : BitVec 4), f (s.raiseIllegal c op) = f s
  overrun : ∀ (s : State) (t : Target) (w : Word), f (s.overrun t w) = f s
  writeTarget : ∀ (s : State) (c e : Bool) (t : Target) (w : Word) (strb : BitVec 4),
    f (s.writeTarget c e t w strb) = f s

section
variable {α : Type} {f : State → α} {ops : List (BitVec 4)}

theorem WrittenAfterTickOnlyBy.advanced_eq (hf : WrittenAfterTickOnlyBy f ops) {s : State}
    (quiet : ¬ CompletesOneOf s ops) : f s.advanced = f s := by
  rcases advanced_cases s with ⟨-, he⟩ | ⟨p, -, -, he⟩ | ⟨p, hp, due, ⟨i, hd, he⟩ | ⟨-, he⟩⟩
  · rw [he]
  · rw [he, hf.countDown]
  · rw [he, hf.finish, hf.effects i s fun listed => quiet ⟨p, i, hp, due, hd, listed⟩]
  · rw [he, hf.finish]

theorem WrittenAfterTickOnlyBy.requested_eq (hf : WrittenAfterTickOnlyBy f ops) (s0 : State) (tick : Bool)
    (req : Option Request) (u : State) (idle : s0.pend = none → u.pend = none) :
    f (s0.requested tick req u) = f u := by
  rcases requested_cases s0 tick req u idle with
    he | ⟨-, q, -, he⟩ | ⟨-, c, op, -, -, he⟩ | ⟨-, i, -, he⟩ | ⟨q, -, -, -, -, -, he⟩
  · rw [he]
  · rw [he, hf.overrun]
  · rw [he, hf.raiseIllegal]
  · rw [he, hf.accept]
  · rw [he, hf.writeTarget]

/-- Unless a listed command completes in it, a cycle without reset does to `f` what its tick does. -/
theorem WrittenAfterTickOnlyBy.cycled_eq (hf : WrittenAfterTickOnlyBy f ops) {s : State} {x : Inputs}
    (run : x.rst = false) (quiet : ¬ CompletesOneOf s ops) : f (s.cycled x) = f (s.afterTick x.tick) := by
  have pend : (s.afterTick x.tick).pend = s.pend := s.afterTick_pend x.tick
  have idle : s.pend = none → (s.afterTick x.tick).advanced.pend = none :=
    fun h => advanced_idle_of_idle (pend.trans h)
  rw [cycled_of_run s run, hf.out, hf.requested_eq s _ _ _ idle,
    hf.advanced_eq fun h => quiet (completesOneOf_of_pend_eq pend h)]

end

/-! ### The timer -/

/-- Only TMR_ARM has an effect on `TCNT` (43_control.md R181). -/
theorem effectsOf_tcnt (i : Instr) (s : State) (h : i.opcode ∉ [0xB#4]) : (effectsOf i s).tcnt = s.tcnt := by
  cases i
  case tmrArm => exact absurd h (by simp [Instr.opcode])
  all_goals rfl

/-- Only TMR_ARM and TMR_DISARM have an effect on `ARMED` (43_control.md R181, R182). -/
theorem effectsOf_armed (i : Instr) (s : State) (h : i.opcode ∉ [0xB#4, 0xC#4]) :
    (effectsOf i s).status.armed = s.status.armed := by
  cases i
  case tmrArm | tmrDisarm => exact absurd h (by simp [Instr.opcode])
  all_goals rfl

theorem effectsOf_inputs (i : Instr) (s : State) : (effectsOf i s).inputs = s.inputs := by
  cases i <;> rfl

theorem tcnt_writtenAfterTickOnlyBy : WrittenAfterTickOnlyBy State.tcnt [0xB] where
  out _ _ := rfl
  countDown := State.countDown_tcnt
  finish := State.finish_tcnt
  effects := effectsOf_tcnt
  accept := State.accept_tcnt
  raiseIllegal := State.raiseIllegal_tcnt
  overrun s t w := by unfold State.overrun; split <;> rfl
  writeTarget s c e t w strb := by unfold State.writeTarget; split <;> rfl

theorem armed_writtenAfterTickOnlyBy : WrittenAfterTickOnlyBy (fun s => s.status.armed) [0xB, 0xC] where
  out _ _ := rfl
  countDown _ _ := rfl
  finish _ := rfl
  effects := effectsOf_armed
  accept _ _ := rfl
  raiseIllegal _ _ _ := rfl
  overrun s t w := by unfold State.overrun; split <;> rfl
  writeTarget s c e t w strb := by unfold State.writeTarget; split <;> rfl

theorem inputs_writtenAfterTickOnlyBy : WrittenAfterTickOnlyBy State.inputs [] where
  out _ _ := rfl
  countDown := State.countDown_inputs
  finish := State.finish_inputs
  effects i s _ := effectsOf_inputs i s
  accept := State.accept_inputs
  raiseIllegal := State.raiseIllegal_inputs
  overrun s t w := by unfold State.overrun; split <;> rfl
  writeTarget s c e t w strb := by unfold State.writeTarget; split <;> rfl

theorem completesOneOf_mono {s : State} {ops more : List (BitVec 4)} (h : CompletesOneOf s ops)
    (sub : ops ⊆ more) : CompletesOneOf s more := by
  obtain ⟨p, i, hp, due, hd, listed⟩ := h
  exact ⟨p, i, hp, due, hd, sub listed⟩

theorem not_completesOneOf_nil (s : State) : ¬ CompletesOneOf s [] := by
  rintro ⟨p, i, -, -, -, listed⟩
  cases listed

/-- A cycle takes nothing off the list of inputs; the step before it did. -/
theorem cycled_inputs (s : State) {x : Inputs} (run : x.rst = false) : (s.cycled x).inputs = s.inputs :=
  (inputs_writtenAfterTickOnlyBy.cycled_eq run (not_completesOneOf_nil s)).trans (s.afterTick_inputs x.tick)

/-- The step whose inputs stand at the head of the list. -/
theorem step_of_inputs {s : State} {x : Inputs} {xs : List Inputs} (h : s.inputs = x :: xs) :
    step s = .next (s.takeInputs.cycled x) := by
  rw [step_eq, State.nextInputs, h]
  rfl

/-- The timer of a state in which `m` ticks have come since a count of `n` was armed: it is disarmed at 0 from the tick
that reaches the count on. -/
def State.TimerAt (s : State) (n m : Nat) : Prop :=
  s.status.armed = decide (m < n) ∧ s.tcnt.toNat = n - m

theorem timerAt_of_armed {s : State} (armed : s.status.armed = true) (count : s.tcnt ≠ 0) :
    s.TimerAt s.tcnt.toNat 0 := by
  have pos : 0 < s.tcnt.toNat := Nat.pos_of_ne_zero fun h => count (BitVec.eq_of_toNat_eq h)
  exact ⟨by rw [armed, decide_eq_true pos], rfl⟩

section
variable {s : State} {n m : Nat}

/-- One tick more: a timer that is counting goes on or expires, one that has expired stays (60_exceptions.md R220). -/
theorem State.TimerAt.timerTick (h : s.TimerAt n m) : s.timerTick.TimerAt n (m + 1) := by
  obtain ⟨armed, count⟩ := h
  by_cases counting : m < n
  · have on : s.status.armed = true := by rw [armed, decide_eq_true counting]
    by_cases last : s.tcnt.toNat ≤ 1
    · rw [timerTick_of_expiring (expiring_iff.2 ⟨on, last⟩)]
      exact ⟨(decide_eq_false (by omega)).symm, (Nat.sub_eq_zero_of_le (by omega)).symm⟩
    · have less : (s.tcnt - 1).toNat = s.tcnt.toNat - 1 := by bv_omega
      rw [timerTick_of_counting on (by omega)]
      exact ⟨on.trans (decide_eq_true (by omega)).symm, less.trans (by omega)⟩
  · have off : s.status.armed = false := by rw [armed, decide_eq_false counting]
    rw [timerTick_of_disarmed off]
    exact ⟨off.trans (decide_eq_false (by omega)).symm, by omega⟩

theorem State.TimerAt.afterTick (h : s.TimerAt n m) (tick : Bool) :
    (s.afterTick tick).TimerAt n (m + tick.toNat) := by
  cases tick with
  | false => exact h
  | true => exact h.timerTick

/-- A cycle without reset, TMR_ARM or TMR_DISARM moves the timer by its tick. -/
theorem State.TimerAt.cycled (h : s.TimerAt n m) {x : Inputs} (run : x.rst = false)
    (quiet : ¬ CompletesOneOf s [0xB, 0xC]) : (s.cycled x).TimerAt n (m + x.tick.toNat) := by
  obtain ⟨armed, count⟩ := h.afterTick x.tick
  have quietArm : ¬ CompletesOneOf s [0xB] := fun arms => quiet (completesOneOf_mono arms (by simp))
  exact ⟨(armed_writtenAfterTickOnlyBy.cycled_eq run quiet).trans armed,
    (congrArg BitVec.toNat (tcnt_writtenAfterTickOnlyBy.cycled_eq run quietArm)).trans count⟩

end

/-- The number of ticks among the first `k` inputs of a list. -/
def ticksIn (k : Nat) (xs : List Inputs) : Nat :=
  ((xs.take k).filter fun x => x.tick).length

@[simp] theorem ticksIn_zero (xs : List Inputs) : ticksIn 0 xs = 0 := rfl

theorem ticksIn_cons (k : Nat) (x : Inputs) (xs : List Inputs) :
    ticksIn (k + 1) (x :: xs) = x.tick.toNat + ticksIn k xs := by
  cases h : x.tick <;> simp [ticksIn, h, Nat.add_comm]

/-- Over a run the timer moves by the ticks of the inputs taken. -/
theorem State.TimerAt.run {k n m : Nat} {s t : State} (h : s.TimerAt n m) (len : k ≤ s.inputs.length)
    (run : ∀ x ∈ s.inputs.take k, x.rst = false)
    (quiet : ∀ j u, j < k → RunsTo j s u → ¬ CompletesOneOf u [0xB, 0xC]) (reach : RunsTo k s t) :
    t.TimerAt n (m + ticksIn k s.inputs) := by
  induction k generalizing s m with
  | zero =>
    obtain rfl : s = t := Host.Outcome.next.inj reach
    exact h
  | succ k ih =>
    cases hin : s.inputs with
    | nil => simp [hin] at len
    | cons x xs =>
      rw [hin] at len run
      obtain ⟨runx, runxs⟩ := List.forall_mem_cons.1 run
      have first : step s = .next (s.takeInputs.cycled x) := step_of_inputs hin
      have rest : (s.takeInputs.cycled x).inputs = xs := by
        rw [cycled_inputs _ runx, State.takeInputs_inputs, hin, List.tail_cons]
      have quietNow : ¬ CompletesOneOf s.takeInputs [0xB, 0xC] := quiet 0 s (Nat.succ_pos k) rfl
      have moved : (s.takeInputs.cycled x).TimerAt n (m + x.tick.toNat) :=
        State.TimerAt.cycled (s := s.takeInputs) h runx quietNow
      rw [ticksIn_cons, ← Nat.add_assoc, ← rest]
      exact ih moved (rest ▸ Nat.le_of_succ_le_succ len) (rest ▸ runxs)
        (fun j u hj hu => quiet (j + 1) u (Nat.succ_lt_succ hj) ((run_succ j first).trans hu))
        ((run_succ k first).symm.trans reach)

/-- Settles O33: TMR_ARM loads the count, and the timer of a run is at the number of its ticks, by induction on the
steps. -/
theorem timerExpiresOnLastTick : Obligations.TimerExpiresOnLastTick := by
  refine ⟨fun s p hp => ⟨_, exec_completes hp, rfl, rfl, rfl, rfl⟩, ?_⟩
  intro s t k armed count len run quiet reach
  obtain ⟨armed', count'⟩ := (timerAt_of_armed armed count).run len run quiet reach
  rw [Nat.zero_add] at armed' count'
  refine ⟨fun before => ⟨armed'.trans (decide_eq_true before), count'⟩, fun reached => ?_⟩
  exact ⟨armed'.trans (decide_eq_false (Nat.not_lt.2 reached)),
    BitVec.eq_of_toNat_eq (count'.trans (Nat.sub_eq_zero_of_le reached))⟩

end Sys2Proof.Machine
end

section
/-! PROOF. The control commands: their words, their one operand check, and what their completions leave (43_control.md
R180 to R184). -/

namespace Sys2Proof.Machine

open Sys2Proof.Claims Sys2Proof.Laws

/-- Settles O29: no effect and no check; while a command is pending its word is an overrun like any other. -/
theorem nopSetsDoneOnly : Obligations.NopSetsDoneOnly := by
  refine ⟨⟨rfl, rfl⟩, ?_, alwaysAccepted_of_no_cause fun _ => rfl, fun _ _ => exec_completes, ?_⟩
  · exact rejectsReserved_of_mask (fun _ => decode_nop) fun _ => and_ne_zero_of_field_ne (by decide)
  · intro s x p hp hq
    exact cycleAdds_overrun_of_cmdRequest (by rw [State.busy, hp]; rfl) hq

/-- TMR_ARM has one check (43_control.md R181). -/
theorem firstCause_tmrArm (s : State) : s.firstCause .tmrArm = if s.tload = 0 then some .tloadZero else none :=
  causeUnless_eq_ite bne_iff_ne .tloadZero

/-- Settles O30: three fixed words under one mask; only TMR_ARM has a check; the effects are those of R181 to R183. -/
theorem timerCommandsComplete : Obligations.TimerCommandsComplete := by
  refine ⟨⟨rfl, rfl⟩, ⟨rfl, rfl⟩, ⟨rfl, rfl⟩, ?_, fun s idle => ?_, alwaysAccepted_of_no_cause fun _ => rfl,
    alwaysAccepted_of_no_cause fun _ => rfl,
    fun s p hp => ⟨exec_completes hp, exec_completes hp, exec_completes hp⟩⟩
  · have caught : ∀ w, field w 4 28 ≠ 0 → w &&& 0xFFFFFFF0 ≠ 0 := fun _ => and_ne_zero_of_field_ne (by decide)
    simp only [List.forall_mem_cons]
    exact ⟨rejectsReserved_of_mask (fun _ => decode_tmrArm) caught,
      rejectsReserved_of_mask (fun _ => decode_tmrDisarm) caught,
      rejectsReserved_of_mask (fun _ => decode_retryClr) caught, List.forall_mem_nil _⟩
  · exact exec_of_check idle (firstCause_tmrArm s)

theorem exec_reserved_rejects {s : State} (idle : s.pend = none) (rest : BitVec 28) :
    exec (.reservedE rest) s = .next (rejected s 1 0xE) ∧ exec (.reservedF rest) s = .next (rejected s 1 0xF) :=
  ⟨exec_rejects (c := .rsvdOp) idle rfl, exec_rejects (c := .rsvdOp) idle rfl⟩

/-- Settles O31: the two opcodes decode whatever the other bits hold, and their first cause is RSVD_OP. -/
theorem reservedOpcodesRejected : Obligations.ReservedOpcodesRejected := by
  refine ⟨fun s rest idle => exec_reserved_rejects idle rest, fun s w idle hop => ?_⟩
  change presentWord w s = .next (rejected s 1 w.opField)
  unfold presentWord
  rcases hop with hE | hF
  · have op : w.opField = 0xE := opField_eq_of_field hE
    rw [decode_reservedE op, op]
    exact (exec_reserved_rejects idle _).1
  · have op : w.opField = 0xF := opField_eq_of_field hF
    rw [decode_reservedF op, op]
    exact (exec_reserved_rejects idle _).2

end Sys2Proof.Machine
end

section
/-! PROOF. The tick and the retry counter: what a tick does, and which commands of the same cycle override it
(60_exceptions.md R220, R222; 70_reset_and_hazards.md R253, R254). -/

namespace Sys2Proof.Machine

open Sys2Proof.Claims

/-! ### The retry counter -/

/-- An expiry counts one retry, up to `0xFFFF` (60_exceptions.md R222). -/
theorem Retry.toNat_bump_cnt (r : Retry) : r.bump.cnt.toNat = min (r.cnt.toNat + 1) 0xFFFF := by
  by_cases full : r.cnt = 0xFFFF
  · simp [Retry.bump, full]
  · have notFull : r.bump.cnt = r.cnt + 1 := if_neg full
    rw [notFull]
    bv_omega

theorem timerTick_of_not_expiring_retry {s : State} (h : s.expiring = false) : s.timerTick.retry = s.retry := by
  cases armed : s.status.armed with
  | false => rw [timerTick_of_disarmed armed]
  | true =>
    have counting : 1 < s.tcnt.toNat := by simpa [State.expiring, armed] using h
    rw [timerTick_of_counting armed counting]

/-- Only RETRY_CLR has an effect on `RETRY.CNT` (43_control.md R183). -/
theorem effectsOf_retry_cnt (i : Instr) (s : State) (h : i.opcode ∉ [0xD#4]) :
    (effectsOf i s).retry.cnt = s.retry.cnt := by
  cases i
  case retryClr => exact absurd h (by simp [Instr.opcode])
  all_goals rfl

/-- No bus write reaches `RETRY.CNT`: a write to `RETRY` stores `LIMIT` only (10_state.md R42). -/
theorem retryCnt_writtenAfterTickOnlyBy : WrittenAfterTickOnlyBy (fun s => s.retry.cnt) [0xD] where
  out _ _ := rfl
  countDown _ _ := rfl
  finish _ := rfl
  effects := effectsOf_retry_cnt
  accept _ _ := rfl
  raiseIllegal _ _ _ := rfl
  overrun s t w := by unfold State.overrun; split <;> rfl
  writeTarget s c e t w strb := by unfold State.writeTarget; split <;> rfl

/-- A block that is idle stays so until the cycle's request. -/
theorem advanced_afterTick_idle {s : State} (tick : Bool) (idle : s.pend = none) :
    (s.afterTick tick).advanced.pend = none :=
  advanced_idle_of_idle ((s.afterTick_pend tick).trans idle)

theorem advanced_retry_cnt_of_retryClr {s : State} (h : CompletesOneOf s [0xD]) : s.advanced.retry.cnt = 0 := by
  obtain ⟨p, i, hp, due, hd, listed⟩ := h
  obtain rfl : i = .retryClr := by
    cases i
    case retryClr => rfl
    all_goals simp [Instr.opcode] at listed
  rw [advanced_of_due hp due hd]
  rfl

/-- A cycle in which RETRY_CLR completes clears the counter, whatever its tick and its request do. -/
theorem cycled_retry_cnt_of_retryClr {s : State} {x : Inputs} (run : x.rst = false)
    (h : CompletesOneOf s [0xD]) : (s.cycled x).retry.cnt = 0 := by
  have clears : CompletesOneOf (s.afterTick x.tick) [0xD] :=
    completesOneOf_of_pend_eq (s.afterTick_pend x.tick).symm h
  rw [cycled_of_run s run]
  exact (retryCnt_writtenAfterTickOnlyBy.requested_eq s x.tick x.req _ (advanced_afterTick_idle x.tick)).trans
    (advanced_retry_cnt_of_retryClr clears)

/-- Settles O34: a reset cycle and a completing RETRY_CLR clear the counter; in every other cycle it is as the tick
leaves it. -/
theorem retryCountOnlyByExpiry : Obligations.RetryCountOnlyByExpiry := by
  intro s t h
  obtain rfl := Host.Outcome.next.inj ((step_eq s).symm.trans h)
  refine ⟨fun reset => by rw [cycled_of_reset _ reset]; rfl, fun run =>
    ⟨fun clears => cycled_retry_cnt_of_retryClr (s := s.takeInputs) run clears, fun quiet => ?_⟩⟩
  have ticked : (s.takeInputs.cycled s.nextInputs).retry.cnt =
      (s.takeInputs.afterTick s.nextInputs.tick).retry.cnt :=
    retryCnt_writtenAfterTickOnlyBy.cycled_eq (s := s.takeInputs) run quiet
  rw [ticked]
  constructor
  · rintro ⟨tick, expires⟩
    rw [tick, afterTick_true, timerTick_of_expiring (s := s.takeInputs) (expiring_iff.2 expires)]
    exact s.retry.toNat_bump_cnt
  · intro noExpiry
    cases tick : s.nextInputs.tick with
    | false => rfl
    | true =>
      have still : s.takeInputs.expiring = false :=
        Bool.eq_false_iff.2 fun expires => noExpiry ⟨tick, expiring_iff.1 expires⟩
      exact congrArg Retry.cnt (timerTick_of_not_expiring_retry still)

/-! ### TIMEOUT -/

/-- No completion writes `TIMEOUT`. -/
theorem advanced_timeout (s : State) : s.advanced.status.timeout = s.status.timeout := by
  have effects : ∀ i, (effectsOf i s).status.timeout = s.status.timeout := fun i => by cases i <;> rfl
  rcases advanced_cases s with ⟨-, he⟩ | ⟨p, -, -, he⟩ | ⟨p, -, -, ⟨i, -, he⟩ | ⟨-, he⟩⟩
  · rw [he]
  · rw [he]; rfl
  · rw [he]; exact effects i
  · rw [he]; rfl

/-- A write does not clear `TIMEOUT` in a cycle in which the timer expires (70_reset_and_hazards.md R254). -/
theorem State.writeTarget_timeout_of_expiring (s : State) (c : Bool) (t : Target) (w : Word) (strb : BitVec 4) :
    (s.writeTarget c true t w strb).status.timeout = s.status.timeout := by
  unfold State.writeTarget
  split <;> simp [Status.clearWritten]

theorem requested_timeout_of_expiring {s0 : State} (expires : s0.expiring = true) (req : Option Request)
    (u : State) (idle : s0.pend = none → u.pend = none) :
    (s0.requested true req u).status.timeout = u.status.timeout := by
  rcases requested_cases s0 true req u idle with
    he | ⟨-, q, -, he⟩ | ⟨-, c, op, -, -, he⟩ | ⟨-, i, -, he⟩ | ⟨q, -, -, -, -, -, he⟩
  · rw [he]
  · rw [he]; unfold State.overrun; split <;> rfl
  · rw [he]; rfl
  · rw [he]; rfl
  · rw [he, expires]; exact u.writeTarget_timeout_of_expiring _ _ _ _

/-- The cycle of an expiry ends with `TIMEOUT = 1`. -/
theorem cycled_timeout_of_expiring {s : State} {x : Inputs} (run : x.rst = false) (tick : x.tick = true)
    (expires : s.expiring = true) : (s.cycled x).status.timeout = true := by
  have expired : s.timerTick.status.timeout = true := by rw [timerTick_of_expiring expires]
  rw [cycled_of_run s run, tick]
  exact (requested_timeout_of_expiring expires x.req _ (advanced_afterTick_idle true)).trans
    ((advanced_timeout _).trans expired)

/-- Settles O32: the tick is the model's `timerTick`, and each timer field is a part of the state that after the tick
only the listed commands write; a W1C write does not clear the `TIMEOUT` of its own cycle. -/
theorem tickCountsDown : Obligations.TickCountsDown := by
  refine ⟨fun _ => rfl, fun _ => rfl, fun s t x run cycle => ?_⟩
  obtain rfl := Host.Outcome.next.inj ((cycleWith_eq x s).symm.trans cycle)
  exact ⟨tcnt_writtenAfterTickOnlyBy.cycled_eq run, armed_writtenAfterTickOnlyBy.cycled_eq run,
    retryCnt_writtenAfterTickOnlyBy.cycled_eq run,
    fun tick armed last => cycled_timeout_of_expiring run tick (expiring_iff.2 ⟨armed, last⟩)⟩

end Sys2Proof.Machine
end

section
/-! PROOF. `STATUS` bit by bit, and the interrupt output from its bits and the enables of `CTRL` (10_state.md R24, R25;
60_exceptions.md R210). -/

namespace Sys2Proof.Machine

/-- The bits of `STATUS` from bit 0 on (10_state.md R25); the bits above read 0. -/
def State.statusBits (s : State) : List Bool :=
  [s.busy, s.status.done, s.status.errIll, s.status.errOvr, s.status.timeout, s.retryExh,
    s.status.armed, s.status.rxValid, s.status.crcOk, s.status.teardown, s.status.isAck,
    s.status.isNak]

theorem State.statusWord_getLsbD (s : State) {k : Nat} (hk : k < 32) :
    s.statusWord.getLsbD k = s.statusBits.getD k false := by
  have word : s.statusWord = (BitVec.ofBoolListLE s.statusBits).setWidth 32 := rfl
  rw [word, BitVec.getLsbD_setWidth, BitVec.getLsbD_ofBoolListLE, decide_eq_true hk, Bool.true_and]

theorem State.statusWord_bits (s : State) :
    (List.range 32).map s.statusWord.getLsbD = s.statusBits ++ List.replicate 20 false := calc
  _ = (List.range 32).map (s.statusBits.getD · false) :=
    List.map_congr_left fun _ hk => s.statusWord_getLsbD (List.mem_range.1 hk)
  _ = s.statusBits ++ List.replicate 20 false := rfl

theorem Ctrl.toWord_getLsbD (c : Ctrl) {k : Nat} (hk : k < 32) :
    c.toWord.getLsbD k = [c.ieDone, c.ieErr, c.ieTmo, c.ieExh].getD k false := by
  rw [Ctrl.toWord, BitVec.getLsbD_setWidth, BitVec.getLsbD_ofBoolListLE, decide_eq_true hk, Bool.true_and]

/-- `RETRY_EXH` as a condition on the two fields of `RETRY` (10_state.md R31). -/
theorem State.retryExh_eq_decide (s : State) :
    s.retryExh = decide (s.retry.limit ≠ 0 ∧ s.retry.limit.toNat ≤ s.retry.cnt.toNat) := by
  rw [Bool.eq_iff_iff]
  simp [State.retryExh]

/-- The four terms of R210, on the bits the bus reads. -/
theorem State.irq_iff (s : State) :
    s.irq = true ↔
      (s.statusWord.getLsbD 1 = true ∧ s.ctrl.toWord.getLsbD 0 = true) ∨
      ((s.statusWord.getLsbD 2 = true ∨ s.statusWord.getLsbD 3 = true) ∧
        s.ctrl.toWord.getLsbD 1 = true) ∨
      (s.statusWord.getLsbD 4 = true ∧ s.ctrl.toWord.getLsbD 2 = true) ∨
      (s.statusWord.getLsbD 5 = true ∧ s.ctrl.toWord.getLsbD 3 = true) := by
  simp (disch := decide) only [State.statusWord_getLsbD, Ctrl.toWord_getLsbD]
  simp [State.irq, State.statusBits, or_assoc]

/-- Every cycle outputs the `irq` of the state at its start (60_exceptions.md R210). -/
theorem cycled_out_irq (s : State) (x : Inputs) : (s.cycled x).out.irq = s.irq := by
  cases rst : x.rst with
  | true => rw [cycled_of_reset s rst]; rfl
  | false => rw [cycled_of_run s rst]; rfl

/-- Settles O51: `STATUS` is a list of twelve bits, and R210's terms are read from it. -/
theorem statusBitsAndIrq : Obligations.StatusBitsAndIrq := by
  intro s
  refine ⟨?_, s.irq_iff, fun x t _ cycle => ?_, rfl⟩
  · rw [s.statusWord_bits, State.statusBits, s.retryExh_eq_decide]
    rfl
  · obtain rfl := Host.Outcome.next.inj ((cycleWith_eq x s).symm.trans cycle)
    exact cycled_out_irq s x

end Sys2Proof.Machine
end

section
/-! PROOF. A busy-gated write that meets a pending command (60_exceptions.md R204; 70_reset_and_hazards.md R255). -/

namespace Sys2Proof.Machine

open Sys2Proof.Claims

/-! ### The gated targets and their offsets (20_memory.md R61) -/

theorem Target.gated_of_offset {a : BitVec 8}
    (h : a.toNat ∈ [0x08, 0x18, 0x24] ∨ (0x40 ≤ a.toNat ∧ a.toNat < 0x60) ∨
      (0x80 ≤ a.toNat ∧ a.toNat < 0xA0)) : (Target.ofAddr a).gated = true := by
  revert a
  decide +kernel

theorem Target.ofAddr_eq_cmd_iff {a : BitVec 8} : Target.ofAddr a = .cmd ↔ a = 0x08 := by
  revert a
  decide +kernel

/-- The control registers end at `ERR`. -/
theorem Target.offset_of_control {a : BitVec 8} (h : (Target.ofAddr a).control = true) : a.toNat ≤ 0x30 := by
  revert a
  decide +kernel

theorem Target.writable_of_gated {t : Target} (h : t.gated = true) : t ≠ .unmapped ∧ t.readOnly = false := by
  cases t
  case cmd | rxlen | tload => exact ⟨nofun, rfl⟩
  case buf b j =>
    cases b
    case pld | rxf => exact ⟨nofun, rfl⟩
    case txf => cases h
  all_goals cases h

/-! ### The write -/

/-- A good write to a gated target passes the bus checks (20_memory.md R68). -/
theorem Request.busErr_of_gated {q : Request} (good : GoodWrite q) (gated : q.target.gated = true) :
    q.busErr = false := by
  obtain ⟨-, align, strobes⟩ := good
  obtain ⟨mapped, writable⟩ := Target.writable_of_gated gated
  have aligned : q.addr.extractLsb' 0 2 = 0 := by
    apply BitVec.eq_of_toNat_eq
    rw [BitVec.extractLsb'_toNat, Nat.shiftRight_zero]
    exact align
  have strobed : q.target.control = true → q.wstrb = 0xF := fun control =>
    strobes (Target.offset_of_control control)
  rw [Bool.eq_false_iff, Ne, Request.busErr_iff]
  rintro (misaligned | unmapped | ⟨-, readOnly | ⟨control, partialStrobes⟩⟩)
  · exact misaligned aligned
  · exact mapped unmapped
  · exact Bool.eq_false_iff.1 writable readOnly
  · exact partialStrobes (strobed control)

/-- The response to a write that passes the bus checks: no error, no data. -/
theorem State.respond_of_write (s : State) {q : Request} (hw : q.write = true) (ok : q.busErr = false) :
    s.respond (some q) = ⟨0, false⟩ := by
  simp [State.respond, hw, ok]

/-- While a command is pending, a gated write with a strobe is an overrun. -/
theorem requested_of_gated_busy {s : State} {q : Request} (hw : q.write = true) (ok : q.busErr = false)
    (gated : q.target.gated = true) (busy : s.busy = true) (tick : Bool) (u : State) :
    s.requested tick (some q) u = if q.wstrb = 0 then u else u.overrun q.target q.wdata := by
  simp [State.requested, hw, ok, gated, busy]

/-- The overrun of R204 by offset: cause 7 with the word's `OP` for `CMD`, cause 8 with 0 for the others. -/
theorem overrun_eq_by_offset (u : State) (q : Request) :
    u.overrun q.target q.wdata =
      if q.addr = 0x08 then overrun u 7 (q.wdata.extractLsb' 0 4) else overrun u 8 0 := by
  simp only [State.overrun, Request.target, Target.ofAddr_eq_cmd_iff]
  rfl

/-- Settles O37: the offsets listed are the gated targets, so the write passes the bus checks and adds the overrun of
its target, if it has a strobe. -/
theorem busyWritesOverrun : Obligations.BusyWritesOverrun := by
  intro s x q hq good pending offset
  have gated : q.target.gated = true := Target.gated_of_offset offset
  have ok := Request.busErr_of_gated good gated
  have busy : s.busy = true := Option.isSome_iff_ne_none.2 pending
  obtain ⟨hw, -, -⟩ := good
  refine cycleAdds_of_requested hq (fun u => ?_) (s.respond_of_write hw ok) fun u o p => ?_
  · rw [requested_of_gated_busy hw ok gated busy, overrun_eq_by_offset]
  · split
    · rfl
    · split <;> rfl

end Sys2Proof.Machine
end

section
/-! PROOF. A command word by its fields: every word is made of its five fields, so a word that decodes is the word of
its command, and a mask of zeros is the fields it covers (30_encoding.md R91 to R94, R98). -/

namespace Sys2Proof.Laws

open Sys2Proof.Claims

/-! ### Masks of fields -/

/-- The mask of the bits `[lo + len - 1 : lo]`. -/
def fieldMask (lo len : Nat) : Word :=
  (BitVec.allOnes len).setWidth 32 <<< lo

theorem getLsbD_fieldMask {lo len : Nat} (h : lo + len ≤ 32) (k : Nat) :
    (fieldMask lo len).getLsbD k = decide (lo ≤ k ∧ k < lo + len) := by
  rw [Bool.eq_iff_iff]
  simp [fieldMask]
  omega

theorem getLsbD_of_extractLsb'_eq_zero {w : Word} {lo len : Nat} (zero : w.extractLsb' lo len = 0#len) {k : Nat}
    (inside : lo ≤ k ∧ k < lo + len) : w.getLsbD k = false := by
  simpa [show k - lo < len by omega, show lo + (k - lo) = k by omega] using
    congrArg (BitVec.getLsbD · (k - lo)) zero

/-- A mask of one field meets a word exactly where the field is nonzero. -/
theorem and_fieldMask_eq_zero_iff {w : Word} {lo len : Nat} (h : lo + len ≤ 32) :
    w &&& fieldMask lo len = 0 ↔ field w lo len = 0 := by
  have extracted : field w lo len = 0 ↔ w.extractLsb' lo len = 0#len := BitVec.toNat_inj (y := 0#len)
  rw [extracted]
  constructor
  · intro clear
    ext k hk
    simpa [getLsbD_fieldMask h, hk] using congrArg (BitVec.getLsbD · (lo + k)) clear
  · intro zero
    refine BitVec.eq_of_getLsbD_eq fun k _ => ?_
    by_cases inside : lo ≤ k ∧ k < lo + len
    · simp [getLsbD_of_extractLsb'_eq_zero zero inside]
    · simp [getLsbD_fieldMask h, inside]

/-- A mask of one field. -/
theorem and_ne_zero_iff_field {w zeros : Word} (lo len : Nat) (h : lo + len ≤ 32 := by decide)
    (mask : zeros = fieldMask lo len := by decide) : w &&& zeros ≠ 0 ↔ field w lo len ≠ 0 := by
  rw [mask, Ne, and_fieldMask_eq_zero_iff h]

/-- A mask of two fields. -/
theorem and_ne_zero_iff_fields {w zeros : Word} (lo len lo' len' : Nat)
    (h : lo + len ≤ 32 := by decide) (h' : lo' + len' ≤ 32 := by decide)
    (mask : zeros = fieldMask lo len ||| fieldMask lo' len' := by decide) :
    w &&& zeros ≠ 0 ↔ field w lo len ≠ 0 ∨ field w lo' len' ≠ 0 := by
  rw [mask, BitVec.and_or_distrib_left, Ne, BitVec.ofNat_eq_ofNat, BitVec.or_eq_zero_iff, not_and_or]
  exact or_congr (and_fieldMask_eq_zero_iff h).not (and_fieldMask_eq_zero_iff h').not

theorem extractLsb'_one_eq_ofBool (w : Word) (k : Nat) : w.extractLsb' k 1 = BitVec.ofBool (w.getLsbD k) := by
  ext j hj
  obtain rfl : j = 0 := by omega
  simp

/-- A flag as the claims read it, a number, and as the decoder reads it. -/
theorem field_one_eq_toNat (w : Word) (k : Nat) : field w k 1 = (w.getLsbD k).toNat := by
  rw [field, extractLsb'_one_eq_ofBool, BitVec.toNat_ofBool]

/-- Every field that a mask covers is 0 in a word that the mask lets through. -/
theorem extractLsb'_of_clear {w zeros : Word} (clear : w &&& zeros = 0) {lo len : Nat}
    (cover : zeros.extractLsb' lo len = BitVec.allOnes len := by decide) : w.extractLsb' lo len = 0#len := by
  have masked := congrArg (BitVec.extractLsb' lo len) clear
  rwa [BitVec.extractLsb'_and, cover, BitVec.and_allOnes, BitVec.ofNat_eq_ofNat, BitVec.extractLsb'_zero] at masked

/-- The fields cover the word. -/
theorem assemble_fields (w : Word) :
    assemble (Word.opField w) (w.extractLsb' 4 4) (Word.seqField w) (Word.lenField w) (Word.dataField w) = w := by
  unfold assemble Word.dataField Word.lenField Word.seqField Word.opField
  have glue : ∀ hi more lo len : Nat, hi = lo + len →
      w.extractLsb' hi more ++ w.extractLsb' lo len = w.extractLsb' lo (more + len) :=
    fun _ _ _ _ => BitVec.extractLsb'_append_extractLsb'_eq_extractLsb'
  rw [glue 24 8 16 8 rfl, glue 16 (8 + 8) 8 8 rfl, glue 8 (8 + 8 + 8) 4 4 rfl,
    glue 4 (8 + 8 + 8 + 4) 0 4 rfl]
  exact BitVec.extractLsb'_eq_self

/-- A word whose fields are known. -/
theorem assemble_eq_of_fields {w : Word} {op sub : BitVec 4} {seq len data : Byte} (hop : Word.opField w = op)
    (hsub : w.extractLsb' 4 4 = sub) (hseq : Word.seqField w = seq) (hlen : Word.lenField w = len)
    (hdata : Word.dataField w = data) : assemble op sub seq len data = w := by
  subst hop hsub hseq hlen hdata
  exact assemble_fields w

/-- `SUB` from its two flags, where its two upper bits are 0 (30_encoding.md R92). -/
theorem extractLsb'_sub_eq_subField {w : Word} (high : w.extractLsb' 6 2 = 0#2) :
    w.extractLsb' 4 4 = subField (Word.sub1 w) (Word.sub0 w) := by
  have glue : w.extractLsb' 6 2 ++ w.extractLsb' 5 1 ++ w.extractLsb' 4 1 = w.extractLsb' 4 4 := by
    rw [BitVec.extractLsb'_append_extractLsb'_eq_extractLsb' (by rfl : 6 = 5 + 1)]
    exact BitVec.extractLsb'_append_extractLsb'_eq_extractLsb' rfl
  rw [← glue, high, extractLsb'_one_eq_ofBool, extractLsb'_one_eq_ofBool]
  rfl

/-- Where the upper flag is reserved too, `SUB` is its lowest bit. -/
theorem extractLsb'_sub_eq_subField_false {w : Word} (high : w.extractLsb' 5 3 = 0#3) :
    w.extractLsb' 4 4 = subField false (Word.sub0 w) := by
  have glue : w.extractLsb' 5 3 ++ w.extractLsb' 4 1 = w.extractLsb' 4 4 :=
    BitVec.extractLsb'_append_extractLsb'_eq_extractLsb' rfl
  rw [← glue, high, extractLsb'_one_eq_ofBool]
  rfl

/-! ### The word of a decoded command -/

@[simp] theorem Kind.bit_ofBit (b : Bool) : (Kind.ofBit b).bit = b := by cases b <;> rfl

/-- The sixteen opcodes (30_encoding.md R92). -/
theorem opcode_cases : ∀ op : BitVec 4,
    op = 0x0 ∨ op = 0x1 ∨ op = 0x2 ∨ op = 0x3 ∨ op = 0x4 ∨ op = 0x5 ∨ op = 0x6 ∨ op = 0x7 ∨
    op = 0x8 ∨ op = 0x9 ∨ op = 0xA ∨ op = 0xB ∨ op = 0xC ∨ op = 0xD ∨ op = 0xE ∨ op = 0xF := by
  decide

/-- A word of a command without operands. -/
theorem assemble_eq_of_clear {w : Word} {op : BitVec 4} (hop : Word.opField w = op)
    (clear : w &&& 0xFFFFFFF0 = 0) : assemble op 0 0 0 0 = w :=
  assemble_eq_of_fields hop (extractLsb'_of_clear clear) (extractLsb'_of_clear clear) (extractLsb'_of_clear clear)
    (extractLsb'_of_clear clear)

/-- A reserved opcode's command carries all the other bits of its word (30_encoding.md R96). -/
theorem append_opField {w : Word} {op : BitVec 4} (hop : Word.opField w = op) : w.extractLsb' 4 28 ++ op = w := by
  have glue : w.extractLsb' 4 28 ++ w.extractLsb' 0 4 = w.extractLsb' 0 32 :=
    BitVec.extractLsb'_append_extractLsb'_eq_extractLsb' rfl
  subst hop
  exact glue.trans BitVec.extractLsb'_eq_self

/-- The rows of R92 whose words are checked against a mask: what the mask lets through is the command's word. -/
theorem encode_of_row {w zeros : Word} {i j : Instr} (row : decode w = withZeros w zeros i)
    (back : w &&& zeros = 0 → encode i = w) (decoded : decode w = .ok j) : encode j = w := by
  rw [row, withZeros_eq_ok] at decoded
  obtain ⟨clear, rfl⟩ := decoded
  exact back clear

/-- A word that decodes is the word of the command it decodes to: the decoder's mask and the fields it reads are the
whole word. -/
theorem encode_of_decode {w : Word} {i : Instr} (decoded : decode w = .ok i) : encode i = w := by
  rcases opcode_cases (Word.opField w) with
    h | h | h | h | h | h | h | h | h | h | h | h | h | h | h | h
  · exact encode_of_row (decode_nop h) (assemble_eq_of_clear h) decoded
  · exact encode_of_row (decode_crcClr h) (assemble_eq_of_clear h) decoded
  · refine encode_of_row (decode_crcByte h) (fun clear => ?_) decoded
    exact assemble_eq_of_fields h (extractLsb'_of_clear clear) (extractLsb'_of_clear clear)
      (extractLsb'_of_clear clear) rfl
  · refine encode_of_row (decode_crcPld h) (fun clear => ?_) decoded
    exact assemble_eq_of_fields h (extractLsb'_of_clear clear) (extractLsb'_of_clear clear) rfl
      (extractLsb'_of_clear clear)
  · refine encode_of_row (decode_frameData h) (fun clear => ?_) decoded
    exact assemble_eq_of_fields h (extractLsb'_sub_eq_subField_false (extractLsb'_of_clear clear)) rfl rfl
      (extractLsb'_of_clear clear)
  · refine encode_of_row (decode_frameAck h) (fun clear => ?_) decoded
    rw [encode, Kind.bit_ofBit]
    exact assemble_eq_of_fields h (extractLsb'_sub_eq_subField_false (extractLsb'_of_clear clear)) rfl
      (extractLsb'_of_clear clear) (extractLsb'_of_clear clear)
  · refine encode_of_row (decode_frameSwtag h) (fun clear => ?_) decoded
    rw [encode, Kind.bit_ofBit]
    exact assemble_eq_of_fields h (extractLsb'_sub_eq_subField (extractLsb'_of_clear clear)) rfl
      (extractLsb'_of_clear clear) (extractLsb'_of_clear clear)
  · exact encode_of_row (decode_frameTeardown h) (assemble_eq_of_clear h) decoded
  · refine encode_of_row (decode_check h) (fun clear => ?_) decoded
    exact assemble_eq_of_fields h (extractLsb'_sub_eq_subField_false (extractLsb'_of_clear clear))
      (extractLsb'_of_clear clear) (extractLsb'_of_clear clear) (extractLsb'_of_clear clear)
  · exact encode_of_row (decode_inject h) (assemble_eq_of_clear h) decoded
  · exact encode_of_row (decode_loopback h) (assemble_eq_of_clear h) decoded
  · exact encode_of_row (decode_tmrArm h) (assemble_eq_of_clear h) decoded
  · exact encode_of_row (decode_tmrDisarm h) (assemble_eq_of_clear h) decoded
  · exact encode_of_row (decode_retryClr h) (assemble_eq_of_clear h) decoded
  · obtain rfl := Except.ok.inj ((decode_reservedE h).symm.trans decoded)
    exact append_opField h
  · obtain rfl := Except.ok.inj ((decode_reservedF h).symm.trans decoded)
    exact append_opField h

/-- `OP` of a word that decodes is its command's opcode. -/
theorem opField_of_decode {w : Word} {i : Instr} (decoded : decode w = .ok i) : Word.opField w = i.opcode := by
  rw [← encode_of_decode decoded]
  cases i <;> exact opField_append _ _

theorem op_of_withZeros_error {w zeros : Word} {i : Instr} {op : BitVec 4}
    (refused : withZeros w zeros i = .error (.reservedField op)) : op = Word.opField w := by
  unfold withZeros at refused
  split at refused
  · cases refused
  · cases refused
    rfl

/-- The decoder's error names the word's `OP` (30_encoding.md R94); the two reserved opcodes always decode. -/
theorem op_of_decode_error {w : Word} {op : BitVec 4} (refused : decode w = .error (.reservedField op)) :
    op = Word.opField w := by
  unfold decode at refused
  split at refused
  case h_15 | h_16 => cases refused
  all_goals exact op_of_withZeros_error refused

end Sys2Proof.Laws
end

section
/-! PROOF. Acceptance of a `CMD` write: the first cause of a word from its raw fields is what the decoder and the
command's own checks find, in the order of R202 (30_encoding.md R92 to R96; 60_exceptions.md R202, R203). -/

namespace Sys2Proof.Machine

open Sys2Proof.Claims Sys2Proof.Laws

/-! ### The first cause of a word -/

/-- The first cause of a command word: the decoder's, then its command's. -/
def State.wordCause (s : State) (w : Word) : Option Cause :=
  match decode w with
  | .ok i => s.firstCause i
  | .error _ => some .rsvdField

theorem wordCause_of_ok (s : State) {w : Word} {i : Instr} (decoded : decode w = .ok i) :
    s.wordCause w = s.firstCause i := by
  rw [State.wordCause, decoded]

theorem wordCause_of_error (s : State) {w : Word} {e : DecodeError} (refused : decode w = .error e) :
    s.wordCause w = some .rsvdField := by
  rw [State.wordCause, refused]

@[simp] theorem wordCause_afterTick (s : State) (tick : Bool) (w : Word) :
    (s.afterTick tick).wordCause w = s.wordCause w := by
  cases decoded : decode w with
  | ok i => rw [wordCause_of_ok _ decoded, wordCause_of_ok _ decoded, firstCause_afterTick]
  | error e => rw [wordCause_of_error _ decoded, wordCause_of_error _ decoded]

theorem written_of_ok {s : State} (idle : s.pend = none) {w : Word} {i : Instr} (decoded : decode w = .ok i) :
    s.written w = s.presented i := by
  rw [State.written, decoded]
  simp [State.commanded, State.busy, idle]

/-- An idle block rejects a word with its first cause and its `OP` (60_exceptions.md R203). -/
theorem written_of_cause {s : State} (idle : s.pend = none) {w : Word} {c : Cause} (h : s.wordCause w = some c) :
    s.written w = rejected s c.code (Word.opField w) := by
  cases decoded : decode w with
  | ok i =>
    rw [wordCause_of_ok s decoded] at h
    rw [written_of_ok idle decoded, presented_of_cause h, opField_of_decode decoded]
    rfl
  | error e =>
    obtain ⟨op⟩ := e
    obtain rfl := Option.some.inj ((wordCause_of_error s decoded).symm.trans h)
    rw [State.written, decoded, ← op_of_decode_error decoded]
    rfl

/-- An idle block accepts every other word (70_reset_and_hazards.md R250). -/
theorem written_of_no_cause {s : State} (idle : s.pend = none) {w : Word} (h : s.wordCause w = none) :
    s.written w = accepted s w := by
  cases decoded : decode w with
  | ok i =>
    rw [wordCause_of_ok s decoded] at h
    rw [written_of_ok idle decoded, presented_of_legal h, ← encode_of_decode decoded]
    rfl
  | error e => cases (wordCause_of_error s decoded).symm.trans h

/-! ### The same cause from the raw fields -/

/-- The code of what acceptance finds (60_exceptions.md R201): 0 is no cause. -/
def codeOf : Option Cause → BitVec 4
  | none => 0
  | some c => c.code

@[simp] theorem codeOf_none : codeOf none = 0 := rfl

@[simp] theorem codeOf_some (c : Cause) : codeOf (some c) = c.code := rfl

@[simp] theorem codeOf_ite (p : Prop) [Decidable p] (a b : Option Cause) :
    codeOf (if p then a else b) = if p then codeOf a else codeOf b :=
  apply_ite codeOf p a b

/-- One row of R92: what its mask catches is RSVD_FIELD, and for the rest its command's checks decide. -/
theorem codeOf_wordCause_of_row (s : State) {w zeros : Word} {i : Instr} {reserved : Prop} [Decidable reserved]
    (row : decode w = withZeros w zeros i) (mask : w &&& zeros ≠ 0 ↔ reserved) :
    codeOf (s.wordCause w) = if reserved then 2 else codeOf (s.firstCause i) := by
  by_cases h : reserved
  · rw [if_pos h, wordCause_of_error s (row.trans (withZeros_of_ne i (mask.2 h)))]
    rfl
  · have clear : w &&& zeros = 0 := not_not.1 (mt mask.1 h)
    rw [if_neg h, wordCause_of_ok s (row.trans (withZeros_eq_ok.2 ⟨clear, rfl⟩))]

/-- `SEQ` fits where it is not a nonzero `SEQ` without HAS_SEQ (30_encoding.md R94). -/
theorem fits_of_not_stray {w : Word} {k : Nat} (h : ¬ (field w k 1 = 0 ∧ field w 8 8 ≠ 0)) :
    w.getLsbD k = true ∨ Word.seqField w = 0 := by
  cases flag : w.getLsbD k with
  | true => exact .inl rfl
  | false =>
    have hasSeq : field w k 1 = 0 := by rw [field_one_eq_toNat, flag]; rfl
    exact .inr (BitVec.eq_of_toNat_eq (not_not.1 fun nonzero => h ⟨hasSeq, nonzero⟩))

theorem firstCause_crcPld (s : State) (n : Byte) :
    s.firstCause (.crcPld n) = if 32 < n.toNat then some .lenRange else none :=
  causeUnless_eq_ite (decide_eq_true_iff.trans Nat.not_lt.symm) .lenRange

section
variable (s : State) {w : Word}

/-- The words whose command has no operand and no check. -/
theorem causeOf_of_unchecked {op : BitVec 4} {i : Instr} (h : Word.opField w = op)
    (listed : op ∈ [0x0#4, 0x1, 0x7, 0xC, 0xD]) (row : decode w = withZeros w 0xFFFFFFF0 i)
    (unchecked : s.firstCause i = none) : causeOf s w = codeOf (s.wordCause w) := by
  have hop : field w 0 4 = op.toNat := congrArg BitVec.toNat h
  rw [codeOf_wordCause_of_row s row (and_ne_zero_iff_field 4 28), unchecked]
  simp only [List.mem_cons, List.not_mem_nil, or_false] at listed
  rcases listed with rfl | rfl | rfl | rfl | rfl <;> simp [causeOf, hop]

theorem causeOf_crcByte (h : Word.opField w = 0x2) : causeOf s w = codeOf (s.wordCause w) := by
  have hop : field w 0 4 = 0x2 := congrArg BitVec.toNat h
  rw [codeOf_wordCause_of_row s (decode_crcByte h) (and_ne_zero_iff_field 4 20)]
  simp [causeOf, hop, State.firstCause]

theorem causeOf_crcPld (h : Word.opField w = 0x3) : causeOf s w = codeOf (s.wordCause w) := by
  have hop : field w 0 4 = 0x3 := congrArg BitVec.toNat h
  have len : (Word.lenField w).toNat = field w 16 8 := rfl
  rw [codeOf_wordCause_of_row s (decode_crcPld h) (and_ne_zero_iff_fields 4 12 24 8), firstCause_crcPld, len]
  simp [causeOf, hop, Cause.code]

theorem causeOf_frameData (h : Word.opField w = 0x4) : causeOf s w = codeOf (s.wordCause w) := by
  have hop : field w 0 4 = 0x4 := congrArg BitVec.toNat h
  have len : (Word.lenField w).toNat = field w 16 8 := rfl
  have hasSeq : (Word.sub0 w).toNat = field w 4 1 := (field_one_eq_toNat w 4).symm
  rw [codeOf_wordCause_of_row s (decode_frameData h) (and_ne_zero_iff_fields 5 3 24 8)]
  by_cases stray : field w 4 1 = 0 ∧ field w 8 8 ≠ 0
  · have misfit : seqFieldFits (Word.sub0 w) (Word.seqField w) = false :=
      seqFieldFits_of_stray_seq stray.1 stray.2
    rw [firstCause_frameData_of_misfit s _ misfit]
    simp [causeOf, hop, stray, Cause.code]
  · have fits : Word.sub0 w = true ∨ Word.seqField w = 0 := fits_of_not_stray stray
    have range : (field w 16 8 < 1 ∨ 31 - field w 4 1 < field w 16 8) ↔
        ¬ (1 ≤ field w 16 8 ∧ field w 16 8 + field w 4 1 ≤ 31) := by
      have short : field w 4 1 ≤ 1 := hasSeq ▸ Bool.toNat_le _
      omega
    simp only [firstCause_frameData_of_fits s _ fits, len, hasSeq, range]
    simp [causeOf, hop, stray, Cause.code]

theorem causeOf_frameAck (h : Word.opField w = 0x5) : causeOf s w = codeOf (s.wordCause w) := by
  have hop : field w 0 4 = 0x5 := congrArg BitVec.toNat h
  rw [codeOf_wordCause_of_row s (decode_frameAck h) (and_ne_zero_iff_fields 5 3 16 16)]
  simp [causeOf, hop, State.firstCause]

theorem causeOf_frameSwtag (h : Word.opField w = 0x6) : causeOf s w = codeOf (s.wordCause w) := by
  have hop : field w 0 4 = 0x6 := congrArg BitVec.toNat h
  have seq : (Word.seqField w).toNat = field w 8 8 := rfl
  have hasSeq : field w 5 1 = (Word.sub1 w).toNat := field_one_eq_toNat w 5
  rw [codeOf_wordCause_of_row s (decode_frameSwtag h) (and_ne_zero_iff_fields 6 2 16 16)]
  by_cases stray : field w 5 1 = 0 ∧ field w 8 8 ≠ 0
  · have misfit : seqFieldFits (Word.sub1 w) (Word.seqField w) = false :=
      seqFieldFits_of_stray_seq stray.1 stray.2
    rw [firstCause_frameSwtag_of_misfit s _ misfit]
    simp [causeOf, hop, stray, Cause.code]
  · cases flag : Word.sub1 w with
    | true =>
      have one : field w 5 1 = 1 := by rw [hasSeq, flag]; rfl
      simp [firstCause_frameSwtag_seq, seq, causeOf, hop, one, Cause.code]
    | false =>
      have zero : field w 5 1 = 0 := by rw [hasSeq, flag]; rfl
      have unused : Word.seqField w = 0 := (fits_of_not_stray stray).resolve_left (Bool.eq_false_iff.1 flag)
      have noSeq : field w 8 8 = 0 := congrArg BitVec.toNat unused
      simp [unused, State.firstCause, frameSwtagCause, seqFieldFits, causeOf, hop, zero, noSeq]

theorem causeOf_check (h : Word.opField w = 0x8) : causeOf s w = codeOf (s.wordCause w) := by
  have hop : field w 0 4 = 0x8 := congrArg BitVec.toNat h
  have hasSeq : (Word.sub0 w).toNat = field w 4 1 := (field_one_eq_toNat w 4).symm
  have range : (s.rxlen.toNat < 1 + field w 4 1 ∨ 32 < s.rxlen.toNat) ↔
      ¬ (1 + field w 4 1 ≤ s.rxlen.toNat ∧ s.rxlen.toNat ≤ 32) := by omega
  rw [codeOf_wordCause_of_row s (decode_check h) (and_ne_zero_iff_field 5 27)]
  simp only [firstCause_check, hasSeq, range]
  simp [causeOf, hop, Cause.code]

theorem causeOf_inject (h : Word.opField w = 0x9) : causeOf s w = codeOf (s.wordCause w) := by
  have hop : field w 0 4 = 0x9 := congrArg BitVec.toNat h
  have sentinel : [0x00#8, 0x30#8, 0x30#8, 0x90#8] = teardownFrame := rfl
  rw [codeOf_wordCause_of_row s (decode_inject h) (and_ne_zero_iff_field 4 28), firstCause_inject]
  simp [causeOf, hop, Cause.code, sentinel]

theorem causeOf_loopback (h : Word.opField w = 0xA) : causeOf s w = codeOf (s.wordCause w) := by
  have hop : field w 0 4 = 0xA := congrArg BitVec.toNat h
  rw [codeOf_wordCause_of_row s (decode_loopback h) (and_ne_zero_iff_field 4 28), State.firstCause,
    txlenCause_eq_ite]
  simp [causeOf, hop, Cause.code]

theorem causeOf_tmrArm (h : Word.opField w = 0xB) : causeOf s w = codeOf (s.wordCause w) := by
  have hop : field w 0 4 = 0xB := congrArg BitVec.toNat h
  rw [codeOf_wordCause_of_row s (decode_tmrArm h) (and_ne_zero_iff_field 4 28), firstCause_tmrArm]
  simp [causeOf, hop, Cause.code]

/-- The reserved opcodes are the first check of R202 and read no other field (30_encoding.md R96). -/
theorem causeOf_reserved (h : Word.opField w = 0xE ∨ Word.opField w = 0xF) :
    causeOf s w = codeOf (s.wordCause w) := by
  have cause : s.wordCause w = some .rsvdOp :=
    h.elim (fun opE => wordCause_of_ok s (decode_reservedE opE)) fun opF => wordCause_of_ok s (decode_reservedF opF)
  have hop : field w 0 4 = 0xE ∨ field w 0 4 = 0xF := h.imp (congrArg BitVec.toNat) (congrArg BitVec.toNat)
  rw [cause]
  simp [causeOf, hop, Cause.code]

end

/-- The raw-field checks of R202 find the first cause that the decoder and the command's own checks find. -/
theorem causeOf_eq_codeOf_wordCause (s : State) (w : Word) : causeOf s w = codeOf (s.wordCause w) := by
  rcases opcode_cases (Word.opField w) with
    h | h | h | h | h | h | h | h | h | h | h | h | h | h | h | h
  · exact causeOf_of_unchecked s h (by decide) (decode_nop h) rfl
  · exact causeOf_of_unchecked s h (by decide) (decode_crcClr h) rfl
  · exact causeOf_crcByte s h
  · exact causeOf_crcPld s h
  · exact causeOf_frameData s h
  · exact causeOf_frameAck s h
  · exact causeOf_frameSwtag s h
  · exact causeOf_of_unchecked s h (by decide) (decode_frameTeardown h) rfl
  · exact causeOf_check s h
  · exact causeOf_inject s h
  · exact causeOf_loopback s h
  · exact causeOf_tmrArm s h
  · exact causeOf_of_unchecked s h (by decide) (decode_tmrDisarm h) rfl
  · exact causeOf_of_unchecked s h (by decide) (decode_retryClr h) rfl
  · exact causeOf_reserved s (.inl h)
  · exact causeOf_reserved s (.inr h)

/-! ### The cycle of a `CMD` write -/

/-- As `cycleAdds_of_requested`, for an effect that is known of the one state the request meets: the cause of a rejected
word is that of the cycle's own start. -/
theorem cycleAdds_of_requested_at {s : State} {x : Inputs} {q : Request} {f : State → State} {r : Response}
    (hq : Requests x q)
    (effect : s.requested x.tick (some q) (s.afterTick x.tick).advanced = f (s.afterTick x.tick).advanced)
    (answer : s.respond (some q) = r)
    (blind : ∀ u o p, ({ f { u with out := o } with out := p } : State) = { f u with out := p }) :
    CycleAdds s x f r := by
  obtain ⟨hrst, hreq⟩ := hq
  have hrun : ({ x with req := none } : Inputs).rst = false := hrst
  have out : s.outputs x = ⟨r, s.irq⟩ := by simp [State.outputs, hrst, hreq, answer]
  refine ⟨_, cycleWith_eq _ _, ?_⟩
  rw [cycleWith_eq, cycled_of_run s hrst, cycled_of_run s hrun, out, hreq, effect]
  exact congrArg Host.Outcome.next (blind _ _ _).symm

/-- A `CMD` write to an idle block is presented to acceptance. -/
theorem requested_cmdRequest_of_idle {s : State} (idle : s.pend = none) (tick : Bool) (w : Word) (u : State) :
    s.requested tick (some (cmdRequest w)) u = u.written w := by
  have hw : (cmdRequest w).write = true := rfl
  have strobes : (cmdRequest w).wstrb ≠ 0 := by simp [cmdRequest]
  have notBusy : s.busy = false := by rw [State.busy, idle]; rfl
  simp only [State.requested, hw, cmdRequest_busErr, cmdRequest_target, notBusy, if_neg strobes,
    Bool.not_false, Bool.and_self, Bool.and_false, Bool.false_eq_true, if_true, if_false]
  rfl

/-- What acceptance makes of a word, by the code of its first cause. -/
theorem written_eq_of_code {s : State} (idle : s.pend = none) (w : Word) :
    s.written w =
      if codeOf (s.wordCause w) ≠ 0 then rejected s (codeOf (s.wordCause w)) (Word.opField w)
      else accepted s w := by
  cases found : s.wordCause w with
  | none => rw [written_of_no_cause idle found]; rfl
  | some c => rw [written_of_cause idle found, codeOf_some, if_pos c.code_ne_zero]

/-- Settles O36: partial strobes are a bus error; a busy block overruns; an idle one is presented the word in the state
after the tick, where its first cause is the one the raw fields give. -/
theorem acceptanceTakesFirstCause : Obligations.AcceptanceTakesFirstCause := by
  have low : (0x08 : BitVec 8).toNat ≤ 0x30 := by decide
  refine ⟨fun s x w strb hq partialStrobes =>
    raisesBuserr_of_busErr s hq (Request.busErr_of_partial_strobes rfl low partialStrobes), ?_⟩
  intro s x w hq
  by_cases idle : s.pend = none
  · have still : (s.afterTick x.tick).pend = none := (s.afterTick_pend x.tick).trans idle
    simp only [idle, ne_eq, not_true_eq_false, if_false]
    refine cycleAdds_of_requested_at (q := cmdRequest w) hq ?_ (s.respond_cmdRequest w) fun u o p => ?_
    · rw [requested_cmdRequest_of_idle idle, advanced_of_idle still, written_eq_of_code still,
        wordCause_afterTick, ← causeOf_eq_codeOf_wordCause]
      rfl
    · split <;> rfl
  · simp only [ne_eq, idle, not_false_eq_true, if_true]
    exact cycleAdds_overrun_of_cmdRequest (Option.isSome_iff_ne_none.2 idle) hq

end Sys2Proof.Machine
end

section
/-! PROOF. A reset cycle (70_reset_and_hazards.md R240, R241, R261). -/

namespace Sys2Proof.Machine

/-- Settles O56: with `rst = 1` a cycle is `resetCycle` and a response of 0, whatever its tick and its request are; the
registers' reads at their reset values are evaluated. -/
theorem resetCycleClearsRegisters : Obligations.ResetCycleClearsRegisters := by
  refine ⟨fun s x reset => ⟨s.mem :: s.bufHist, s.inputs, s.cycle, s.irq, ?_⟩, by decide, rfl, rfl⟩
  have out : s.outputs x = ⟨⟨0, false⟩, s.irq⟩ := by rw [State.outputs, if_pos reset]
  rw [cycleWith_eq, cycled_of_reset s reset, out]
  rfl

end Sys2Proof.Machine
end

section
/-! PROOF. A W1C write to `STATUS` and the events of its cycle (10_state.md R25; 70_reset_and_hazards.md R254). -/

namespace Sys2Proof.Machine

open Sys2Proof.Claims

/-- A bit written as 1 is cleared, unless the cycle's event sets it. -/
theorem and_not_or_eq_ite {event : Bool} {happens : Prop} [Decidable happens] (h : event = true ↔ happens)
    (bit written : Bool) :
    (bit && (!written || event)) = if written = true ∧ ¬ happens then false else bit := by
  cases written <;> cases event <;> simp [← h]

/-- The W1C write with its two events as conditions. -/
theorem Status.clearWritten_eq_ite (f : Status) (w : Word) {completes expires : Bool} {due lapses : Prop}
    [Decidable due] [Decidable lapses] (hc : completes = true ↔ due) (he : expires = true ↔ lapses) :
    f.clearWritten w completes expires =
      { f with
        done := if w.getLsbD 1 = true ∧ ¬ due then false else f.done
        errIll := if w.getLsbD 2 = true then false else f.errIll
        errOvr := if w.getLsbD 3 = true then false else f.errOvr
        timeout := if w.getLsbD 4 = true ∧ ¬ lapses then false else f.timeout } := by
  have clear : ∀ bit written : Bool, (bit && !written) = if written = true then false else bit := by decide
  rw [Status.clearWritten, and_not_or_eq_ite hc, and_not_or_eq_ite he, clear, clear]

/-- The request that writes a word to `STATUS`. -/
def statusRequest (w : Word) : Request :=
  ⟨true, 0x0C, w, 0xF⟩

theorem statusRequest_target (w : Word) : (statusRequest w).target = .status := rfl

/-- A `STATUS` write passes the bus checks (20_memory.md R68). -/
theorem statusRequest_busErr (w : Word) : (statusRequest w).busErr = false := by
  have aligned : (statusRequest w).addr.extractLsb' 0 2 = 0 := by simp [statusRequest]
  have strobes : (statusRequest w).wstrb = 0xF := rfl
  rw [Bool.eq_false_iff, Ne, Request.busErr_iff, statusRequest_target]
  simp [aligned, strobes, Target.readOnly]

/-- A `STATUS` write is the W1C write, busy or not (70_reset_and_hazards.md R255). -/
theorem requested_statusRequest (s : State) (tick : Bool) (w : Word) (u : State) :
    s.requested tick (some (statusRequest w)) u =
      { u with status := u.status.clearWritten w s.completes (tick && s.expiring) } := by
  have hw : (statusRequest w).write = true := rfl
  have strobes : (statusRequest w).wstrb ≠ 0 := by simp [statusRequest]
  have ungated : Target.gated .status = false := rfl
  simp only [State.requested, hw, statusRequest_busErr, statusRequest_target, ungated, if_neg strobes,
    Bool.not_false, Bool.and_self, Bool.false_and, Bool.false_eq_true, if_true, if_false]
  rfl

/-- Settles O54: the write passes the bus checks and is the W1C write, whose two events are a command that is due and a
timer that expires. -/
theorem setBeatsClear : Obligations.SetBeatsClear := by
  intro s x w hq
  have answer : s.respond (some (statusRequest w)) = ⟨0, false⟩ := s.respond_of_write rfl (statusRequest_busErr w)
  have expires : (x.tick && s.expiring) = true ↔ x.tick = true ∧ s.status.armed = true ∧ s.tcnt.toNat ≤ 1 := by
    rw [Bool.and_eq_true, expiring_iff]
  refine cycleAdds_of_requested (q := statusRequest w) hq (fun u => ?_) answer fun _ _ _ => rfl
  rw [requested_statusRequest, Status.clearWritten_eq_ite u.status w completes_iff expires]

end Sys2Proof.Machine
end

section
/-! PROOF. A tick and a completing timer command in one cycle (70_reset_and_hazards.md R253, R260). -/

namespace Sys2Proof.Machine

open Sys2Proof.Claims

theorem expiring_of_last_tick {s : State} (armed : s.status.armed = true) (last : s.tcnt = 1) : s.expiring = true :=
  expiring_iff.2 ⟨armed, by rw [last]; decide⟩

/-- In a cycle with a tick and no request, a due command completes on what the tick leaves. -/
theorem cycled_tickOnly_of_due {s : State} {p : Pending} {i : Instr} (hp : s.pend = some p) (due : p.remaining ≤ 1)
    (hd : decode p.word = .ok i) :
    s.cycled tickOnly = { (effectsOf i s.timerTick).finish with out := s.outputs tickOnly } := by
  have ticked : s.timerTick.pend = some p := s.timerTick_pend.trans hp
  rw [cycled_of_run s rfl, ← advanced_of_due ticked due hd]
  rfl

section
variable {s : State} {p : Pending}

/-- TMR_ARM on an expiry: the expiry counts, and the timer is armed again. -/
theorem tmrArm_meets_expiry (hp : s.pend = some p) (due : p.remaining ≤ 1) (hw : p.word = 0x0000000B)
    (expires : s.expiring = true) :
    (s.cycled tickOnly).status.timeout = true ∧
      (s.cycled tickOnly).retry.cnt.toNat = min (s.retry.cnt.toNat + 1) 0xFFFF ∧
      (s.cycled tickOnly).status.armed = true ∧ (s.cycled tickOnly).tcnt = s.tload := by
  have hd : decode p.word = .ok .tmrArm := by rw [hw]; rfl
  rw [cycled_tickOnly_of_due hp due hd, timerTick_of_expiring expires]
  exact ⟨rfl, s.retry.toNat_bump_cnt, rfl, rfl⟩

/-- TMR_ARM on a disarmed timer: the tick of the same cycle is not counted. -/
theorem tmrArm_meets_tick_of_disarmed (hp : s.pend = some p) (due : p.remaining ≤ 1) (hw : p.word = 0x0000000B)
    (disarmed : s.status.armed = false) :
    (s.cycled tickOnly).status.armed = true ∧ (s.cycled tickOnly).tcnt = s.tload ∧
      (s.cycled tickOnly).retry = s.retry ∧ (s.cycled tickOnly).status.timeout = s.status.timeout := by
  have hd : decode p.word = .ok .tmrArm := by rw [hw]; rfl
  rw [cycled_tickOnly_of_due hp due hd, timerTick_of_disarmed disarmed]
  exact ⟨rfl, rfl, rfl, rfl⟩

/-- TMR_DISARM on an expiry comes too late for it. -/
theorem tmrDisarm_meets_expiry (hp : s.pend = some p) (due : p.remaining ≤ 1) (hw : p.word = 0x0000000C)
    (expires : s.expiring = true) :
    (s.cycled tickOnly).status.timeout = true ∧
      (s.cycled tickOnly).retry.cnt.toNat = min (s.retry.cnt.toNat + 1) 0xFFFF ∧
      (s.cycled tickOnly).tcnt = 0 ∧ (s.cycled tickOnly).status.armed = false := by
  have hd : decode p.word = .ok .tmrDisarm := by rw [hw]; rfl
  rw [cycled_tickOnly_of_due hp due hd, timerTick_of_expiring expires]
  exact ⟨rfl, s.retry.toNat_bump_cnt, rfl, rfl⟩

/-- TMR_DISARM on a counting timer: the tick of the same cycle is counted. -/
theorem tmrDisarm_meets_counting (hp : s.pend = some p) (due : p.remaining ≤ 1) (hw : p.word = 0x0000000C)
    (armed : s.status.armed = true) (counting : 1 < s.tcnt.toNat) :
    (s.cycled tickOnly).tcnt = s.tcnt - 1 ∧ (s.cycled tickOnly).status.armed = false := by
  have hd : decode p.word = .ok .tmrDisarm := by rw [hw]; rfl
  rw [cycled_tickOnly_of_due hp due hd, timerTick_of_counting armed counting]
  exact ⟨rfl, rfl⟩

/-- RETRY_CLR on an expiry clears the retry that the expiry counts. -/
theorem retryClr_meets_expiry (hp : s.pend = some p) (due : p.remaining ≤ 1) (hw : p.word = 0x0000000D)
    (expires : s.expiring = true) :
    (s.cycled tickOnly).status.timeout = true ∧ (s.cycled tickOnly).status.armed = false ∧
      (s.cycled tickOnly).retry.cnt = 0 := by
  have hd : decode p.word = .ok .retryClr := by rw [hw]; rfl
  rw [cycled_tickOnly_of_due hp due hd, timerTick_of_expiring expires]
  exact ⟨rfl, rfl, rfl⟩

end

/-- Settles O35: an expiry's `TIMEOUT` survives the write of its cycle, and the completing command's effects come after
the tick's, row by row. -/
theorem timerMeetsCommand : Obligations.TimerMeetsCommand := by
  constructor
  · intro s t armed last cycle
    obtain rfl := Host.Outcome.next.inj ((cycleWith_eq _ s).symm.trans cycle)
    exact cycled_timeout_of_expiring rfl rfl (expiring_of_last_tick armed last)
  · intro s t p cycle hp one
    obtain rfl := Host.Outcome.next.inj ((cycleWith_eq _ s).symm.trans cycle)
    have due : p.remaining ≤ 1 := one.le
    exact ⟨fun hw armed last => tmrArm_meets_expiry hp due hw (expiring_of_last_tick armed last),
      tmrArm_meets_tick_of_disarmed hp due,
      fun hw armed last => tmrDisarm_meets_expiry hp due hw (expiring_of_last_tick armed last),
      tmrDisarm_meets_counting hp due,
      fun hw armed last => retryClr_meets_expiry hp due hw (expiring_of_last_tick armed last)⟩

end Sys2Proof.Machine
end

section
/-! PROOF. A pending command from its acceptance to its completion (70_reset_and_hazards.md R250, R251, R252). -/

namespace Sys2Proof.Machine

open Sys2Proof.Claims

/-! ### One cycle of a busy block -/

section
variable {s : State} {p : Pending}

/-- What a request can do while a command is pending: nothing, an overrun or a write to a target. -/
theorem requested_cases_of_pending (hp : s.pend = some p) (tick : Bool) (req : Option Request) (u : State) :
    s.requested tick req u = u ∨
    (∃ t w, s.requested tick req u = u.overrun t w) ∨
    (∃ t w strb, s.requested tick req u = u.writeTarget s.completes (tick && s.expiring) t w strb) := by
  have busy : s.pend ≠ none := by rw [hp]; exact Option.some_ne_none p
  rcases requested_cases s tick req u fun idle => absurd idle busy with
    he | ⟨-, q, -, he⟩ | ⟨idle, -⟩ | ⟨idle, -⟩ | ⟨q, -, -, -, -, -, he⟩
  · exact .inl he
  · exact .inr (.inl ⟨_, _, he⟩)
  · exact absurd idle busy
  · exact absurd idle busy
  · exact .inr (.inr ⟨_, _, _, he⟩)

/-- No request starts or aborts a command while one is pending. -/
theorem requested_pend_of_pending (hp : s.pend = some p) (tick : Bool) (req : Option Request) (u : State) :
    (s.requested tick req u).pend = u.pend := by
  rcases requested_cases_of_pending hp tick req u with he | ⟨t, w, he⟩ | ⟨t, w, strb, he⟩
  · rw [he]
  · rw [he, State.overrun_pend]
  · rw [he, State.writeTarget_pend]

/-- A write does not clear `DONE` in a cycle in which a command completes (70_reset_and_hazards.md R254). -/
theorem State.writeTarget_done_of_completes (u : State) (e : Bool) (t : Target) (w : Word) (strb : BitVec 4) :
    (u.writeTarget true e t w strb).status.done = u.status.done := by
  unfold State.writeTarget
  split <;> simp [Status.clearWritten]

theorem requested_done_of_due (hp : s.pend = some p) (due : p.remaining ≤ 1) (tick : Bool) (req : Option Request)
    (u : State) : (s.requested tick req u).status.done = u.status.done := by
  rcases requested_cases_of_pending hp tick req u with he | ⟨t, w, he⟩ | ⟨t, w, strb, he⟩
  · rw [he]
  · rw [he]; unfold State.overrun; split <;> rfl
  · rw [he, completes_iff.2 ⟨p, hp, due⟩, State.writeTarget_done_of_completes]

/-- A command that is due completes, also one whose word is no command (log 7). -/
theorem advanced_of_due_pend_done (hp : s.pend = some p) (due : p.remaining ≤ 1) :
    s.advanced.pend = none ∧ s.advanced.status.done = true := by
  rcases advanced_cases s with ⟨idle, -⟩ | ⟨q, hq, more, -⟩ | ⟨q, -, -, ⟨i, -, he⟩ | ⟨-, he⟩⟩
  · rw [hp] at idle; cases idle
  · obtain rfl : p = q := Option.some.inj (hp.symm.trans hq)
    omega
  · rw [he]; exact ⟨rfl, rfl⟩
  · rw [he]; exact ⟨rfl, rfl⟩

variable {x : Inputs}

/-- A cycle without reset takes one off the count of a command that waits, whatever its tick and its request are. -/
theorem cycled_pend_of_waiting (run : x.rst = false) (hp : s.pend = some p) (more : 1 < p.remaining) :
    (s.cycled x).pend = some ⟨p.word, p.remaining - 1⟩ := by
  have ticked : (s.afterTick x.tick).pend = some p := (s.afterTick_pend x.tick).trans hp
  rw [cycled_of_run s run]
  refine (requested_pend_of_pending hp x.tick x.req _).trans ?_
  rw [advanced_of_waiting ticked more, State.countDown_pend]

/-- A cycle without reset completes a command that is due, whatever its tick and its request are. -/
theorem cycled_of_due (run : x.rst = false) (hp : s.pend = some p) (due : p.remaining ≤ 1) :
    (s.cycled x).pend = none ∧ (s.cycled x).status.done = true := by
  have ticked : (s.afterTick x.tick).pend = some p := (s.afterTick_pend x.tick).trans hp
  obtain ⟨idle, done⟩ := advanced_of_due_pend_done ticked due
  rw [cycled_of_run s run]
  exact ⟨(requested_pend_of_pending hp x.tick x.req _).trans idle,
    (requested_done_of_due hp due x.tick x.req _).trans done⟩

end

/-! ### The cycles of a pending command -/

/-- If none of the first `n` inputs is a reset, a run that has taken `k < n` of them goes on with a cycle without
reset. -/
theorem step_of_inputs_drop {t : State} {xs : List Inputs} {k n : Nat} (rest : t.inputs = xs.drop k) (hk : k < n)
    (len : n ≤ xs.length) (run : ∀ x ∈ xs.take n, x.rst = false) :
    ∃ x, x.rst = false ∧ step t = .next (t.takeInputs.cycled x) := by
  have left : k < xs.length := hk.trans_le len
  exact ⟨xs[k], run _ (List.mem_take_iff_getElem.2 ⟨k, by omega, rfl⟩),
    step_of_inputs (rest.trans (List.drop_eq_getElem_cons left))⟩

section
variable {s : State} {p : Pending} {n : Nat}

/-- Before its count has run down, a command is pending with what is left of it. -/
theorem run_of_waiting {k : Nat} (hp : s.pend = some p) (len : n ≤ s.inputs.length)
    (run : ∀ x ∈ s.inputs.take n, x.rst = false) (hk : k ≤ n) (more : k < p.remaining) :
    ∃ t, RunsTo k s t ∧ t.pend = some ⟨p.word, p.remaining - k⟩ ∧ t.inputs = s.inputs.drop k := by
  induction k with
  | zero => exact ⟨s, rfl, hp, rfl⟩
  | succ k ih =>
    obtain ⟨t, reach, ht, rest⟩ := ih (by omega) (by omega)
    obtain ⟨x, runx, next⟩ := step_of_inputs_drop rest hk len run
    refine ⟨_, run_snoc reach next, ?_, ?_⟩
    · exact cycled_pend_of_waiting (s := t.takeInputs) runx ht (by simp only; omega)
    · rw [cycled_inputs _ runx, State.takeInputs_inputs, rest, List.tail_drop]

/-- When its count has run down, a command has completed. -/
theorem run_of_completing (hp : s.pend = some p) (pos : 1 ≤ p.remaining) (len : p.remaining ≤ s.inputs.length)
    (run : ∀ x ∈ s.inputs.take p.remaining, x.rst = false) :
    ∃ t, RunsTo p.remaining s t ∧ t.pend = none ∧ t.status.done = true := by
  obtain ⟨k, hk⟩ : ∃ k, p.remaining = k + 1 := ⟨p.remaining - 1, by omega⟩
  obtain ⟨t, reach, ht, rest⟩ := run_of_waiting hp len run (k := k) (by omega) (by omega)
  obtain ⟨x, runx, next⟩ := step_of_inputs_drop rest (by omega) len run
  rw [hk]
  exact ⟨_, run_snoc reach next, cycled_of_due (s := t.takeInputs) runx ht (by simp only; omega)⟩

end

/-- Settles O39: acceptance sets the count; each cycle takes one off it, by induction on the cycles, and the cycle that
finds it at 1 completes the command. -/
theorem pendingCommandCompletes : Obligations.PendingCommandCompletes := by
  refine ⟨fun s i idle legal => ⟨_, exec_accepts idle legal, rfl, Nat.le_add_left 1 _, Fin.isLt _⟩, ?_⟩
  intro s p hp pos len run
  refine ⟨fun k more => ?_, ?_⟩
  · obtain ⟨t, reach, ht, -⟩ := run_of_waiting hp len run more.le more
    exact ⟨t, reach, ht, by rw [State.busy, ht]; rfl⟩
  · obtain ⟨t, reach, ht, done⟩ := run_of_completing hp pos len run
    exact ⟨t, reach, ht, by rw [State.busy, ht]; rfl, done⟩

end Sys2Proof.Machine
end

section
/-! PROOF. Words and commands, both ways: every command's word decodes to it, and every word that decodes is its
command's word (30_encoding.md R91 to R94, R98). -/

namespace Sys2Proof.Laws

open Sys2Proof.Claims

theorem decode_encode_of_encodedAs {i : Instr} {w : Word} (h : EncodedAs i w) : decode (encode i) = .ok i := by
  obtain ⟨word, decoded⟩ := h
  rw [word, decoded]

/-- CHECK has one flag, in `SUB[0]`. -/
theorem decode_encode_check (h : Bool) : decode (encode (.check h)) = .ok (.check h) := by
  cases h <;> rfl

/-- A reserved opcode's command carries the bits above `OP`, which the decoder reads back. -/
theorem extractLsb'_rest_append (rest : BitVec 28) (op : BitVec 4) : (rest ++ op).extractLsb' 4 28 = rest :=
  (extractLsb'_append_high rest op 0 28 4 rfl).trans BitVec.extractLsb'_eq_self

theorem decode_encode (i : Instr) : decode (encode i) = .ok i := by
  cases i with
  | nop | crcClr | frameTeardown | inject | loopback | tmrArm | tmrDisarm | retryClr => rfl
  | crcByte data => exact decode_encode_of_encodedAs (encodedAs_crcByte data)
  | crcPld len => exact decode_encode_of_encodedAs (encodedAs_crcPld len)
  | frameData hasSeq seq len => exact decode_encode_of_encodedAs (encodedAs_frameData hasSeq seq len)
  | frameAck kind seq => exact decode_encode_of_encodedAs (encodedAs_frameAck kind seq)
  | frameSwtag kind hasSeq seq => exact decode_encode_of_encodedAs (encodedAs_frameSwtag kind hasSeq seq)
  | check hasSeq => exact decode_encode_check hasSeq
  | reservedE rest =>
    exact (decode_reservedE (OpField.reservedE rest)).trans
      (congrArg (Except.ok ∘ Instr.reservedE) (extractLsb'_rest_append rest _))
  | reservedF rest =>
    exact (decode_reservedF (OpField.reservedF rest)).trans
      (congrArg (Except.ok ∘ Instr.reservedF) (extractLsb'_rest_append rest _))

/-- Settles O1, constructor by constructor: the fixed words are evaluated, the others are read field by field. -/
theorem decodeInvertsEncode : Obligations.DecodeInvertsEncode := decode_encode

/-- Settles O2: the decoder's mask and the fields it reads are the whole word. -/
theorem encodeInvertsDecode : Obligations.EncodeInvertsDecode := fun _ _ => encode_of_decode

/-- Settles O4: seven words, decoded. -/
theorem listedWordsDecode : Obligations.ListedWordsDecode :=
  ⟨rfl, rfl, rfl, rfl, rfl, rfl, rfl⟩

end Sys2Proof.Laws
end

section
/-! PROOF. What every operation of a cycle keeps, every step keeps; the invariant, part by part (10_state.md sections 3
and 4; 60_exceptions.md R201; 70_reset_and_hazards.md R240, R250, R251). -/

namespace Sys2Proof.Machine

open Sys2Proof.Laws

/-! ### The induction over the operations of a cycle, once -/

/-- The state a reset cycle leaves: every register at its reset value (70_reset_and_hazards.md R241), whatever the
model's own fields hold. -/
def resetWith (history : List Memory) (inputs : List Inputs) (cycle : Nat) (out : Outputs) : State :=
  { State.reset with bufHist := history, inputs := inputs, cycle := cycle, out := out }

/-- Every operation that a cycle is made of keeps `P`, where the cycle uses it: one field for each. -/
structure KeptByCycle (P : State → Prop) : Prop where
  reset : ∀ history inputs cycle out, P (resetWith history inputs cycle out)
  takeInputs : ∀ s : State, P s → P s.takeInputs
  out : ∀ (s : State) (o : Outputs), P s → P { s with out := o }
  afterTick : ∀ (s : State) (tick : Bool), P s → P (s.afterTick tick)
  countDown : ∀ (s : State) (p : Pending), s.pend = some p → 1 < p.remaining → P s → P (s.countDown p)
  completes : ∀ (s : State) (p : Pending) (i : Instr), s.pend = some p → decode p.word = .ok i → P s →
    P (effectsOf i s).finish
  finish : ∀ s : State, P s → P s.finish
  accept : ∀ (s : State) (i : Instr), s.firstCause i = none → P s → P (s.accept i)
  raiseIllegal : ∀ (s : State) (c : Cause) (op : BitVec 4), s.pend = none → c ≠ .ovrWrite → P s →
    P (s.raiseIllegal c op)
  overrun : ∀ (s : State) (t : Target) (w : Word), P s → P (s.overrun t w)
  writeTarget : ∀ (s : State) (completes expires : Bool) (q : Request), q.busErr = false →
    (q.target.gated = true → s.pend = none) → P s →
    P (s.writeTarget completes expires q.target q.wdata q.wstrb)

section
variable {P : State → Prop}

theorem KeptByCycle.advanced (hP : KeptByCycle P) {s : State} (h : P s) : P s.advanced := by
  rcases advanced_cases s with ⟨-, he⟩ | ⟨p, hp, more, he⟩ | ⟨p, hp, -, ⟨i, hd, he⟩ | ⟨-, he⟩⟩ <;> rw [he]
  · exact h
  · exact hP.countDown s p hp more h
  · exact hP.completes s p i hp hd h
  · exact hP.finish s h

theorem KeptByCycle.requested (hP : KeptByCycle P) (s0 : State) (tick : Bool) (req : Option Request) {u : State}
    (idle : s0.pend = none → u.pend = none) (h : P u) : P (s0.requested tick req u) := by
  rcases requested_cases s0 tick req u idle with
    he | ⟨-, q, -, he⟩ | ⟨free, c, op, -, hc, he⟩ | ⟨-, i, legal, he⟩ | ⟨q, -, -, ok, -, gate, he⟩ <;> rw [he]
  · exact h
  · exact hP.overrun u _ _ h
  · exact hP.raiseIllegal u c op (idle free) hc h
  · exact hP.accept u i legal h
  · exact hP.writeTarget u _ _ q ok (fun gated => idle (gate gated)) h

/-- What every operation of a cycle keeps, every step keeps. -/
theorem KeptByCycle.step (hP : KeptByCycle P) {s t : State} (h : P s) (hs : step s = .next t) : P t := by
  rcases step_cases hs with ⟨-, rfl⟩ | ⟨-, rfl⟩
  · exact hP.reset _ _ _ _
  · refine hP.out _ _ (hP.requested _ _ _ (fun idle => ?_) (hP.advanced (hP.afterTick _ _ (hP.takeInputs s h))))
    exact advanced_afterTick_idle _ idle

end

/-! ### The parts of the invariant, each over the fields it reads -/

/-- The buffers' list is canonical and holds every byte of the frame in `TXF` (10_state.md R36, R46). -/
structure FrameStored (m : Memory) (txlen : Byte) : Prop where
  canonical : m.wf
  length : txlen = 0 ∨ (2 ≤ txlen.toNat ∧ txlen.toNat ≤ 32)
  written : ∀ i, i < txlen.toNat → (m.read (0x60 + i)).isSome = true

/-- `ERR` holds a code of R201, and `OP` is 0 for no error and for OVR_WRITE (10_state.md R43). -/
structure ErrReg.Legal (e : ErrReg) : Prop where
  cause : e.cause.toNat ≤ 8
  causeOp : e.cause = 0 ∨ e.cause = 8 → e.op = 0

/-- An armed timer has ticks left (60_exceptions.md R220). -/
def TimerLegal (armed : Bool) (tcnt : Word) : Prop :=
  armed = true → tcnt ≠ 0

/-- `DONE` and `BUSY` exclude each other, and a pending command is legal (10_state.md R27, R49). -/
structure State.PendLegal (s : State) : Prop where
  notDone : s.busy = true → s.status.done = false
  pending : ∀ p, s.pend = some p → s.PendingLegal p

/-- Decode results that a CHECK can report (42_check_and_test.md R160, R161). -/
structure CheckResult.Consistent (r : CheckResult) : Prop where
  oneText : ¬ (r.isAck = true ∧ r.isNak = true)
  teardown : r.teardown = true → r.crcOk = false ∧ r.isAck = false ∧ r.isNak = false ∧ r.info = ⟨0, 0, 0⟩

theorem State.inv_iff {s : State} :
    s.Inv ↔ FrameStored s.mem s.txlen ∧ s.err.Legal ∧ TimerLegal s.status.armed s.tcnt ∧ s.PendLegal ∧
      s.results.Consistent :=
  ⟨fun h => ⟨⟨h.memory, h.txlen, h.frameWritten⟩, ⟨h.cause, h.causeOp⟩, h.armed, ⟨h.notDone, h.pending⟩,
      ⟨h.oneText, h.teardown⟩⟩,
    fun ⟨frame, err, timer, pend, results⟩ => ⟨frame.canonical, frame.length, frame.written, err.cause,
      err.causeOp, timer, pend.notDone, pend.pending, results.oneText, results.teardown⟩⟩

/-! ### The frame in memory -/

/-- Every offset that was written stays written. -/
def Memory.Grows (m m' : Memory) : Prop :=
  ∀ a, (m.read a).isSome = true → (m'.read a).isSome = true

theorem Memory.grows_setBuf (m : Memory) (b : Buf) (i : Nat) (v : Byte) : m.Grows (m.setBuf b i v) := by
  intro a h
  rw [Memory.read_setBuf]
  split
  · rfl
  · exact h

theorem Memory.grows_setBytes (m : Memory) (b : Buf) (k : Nat) (vs : List Byte) : m.Grows (m.setBytes b k vs) := by
  induction vs generalizing m k with
  | nil => exact fun _ h => h
  | cons v vs ih => exact fun a h => ih _ _ a (Memory.grows_setBuf m b k v a h)

theorem Memory.grows_setLanes (m : Memory) (b : Buf) (j : Nat) (w : Word) (strb : BitVec 4) :
    m.Grows (m.setLanes b j w strb) := by
  unfold Memory.setLanes
  generalize [0, 1, 2, 3] = ks
  induction ks generalizing m with
  | nil => exact fun _ h => h
  | cons k ks ih =>
    have lane : m.Grows (if strb.getLsbD k then m.setBuf b (j + k) (w.extractLsb' (8 * k) 8) else m) := by
      split
      · exact Memory.grows_setBuf m b _ _
      · exact fun _ h => h
    exact fun a h => ih _ a (lane a h)

theorem FrameStored.of_grows {m m' : Memory} {txlen : Byte} (h : FrameStored m txlen) (canonical : m'.wf)
    (grows : m.Grows m') : FrameStored m' txlen :=
  ⟨canonical, h.length, fun i hi => grows _ (h.written i hi)⟩

/-- A frame that a command builds is in `TXF` (41_framing.md R147). -/
theorem FrameStored.putFrame {s : State} {frame : List Byte} (canonical : s.mem.wf)
    (len : 2 ≤ frame.length ∧ frame.length ≤ 32) :
    FrameStored (s.putFrame frame).mem (s.putFrame frame).txlen := by
  have txlen : (BitVec.ofNat 8 frame.length).toNat = frame.length := by
    rw [BitVec.toNat_ofNat]
    omega
  refine ⟨Memory.wf_setBytes .txf 0 frame canonical, .inr (by rwa [State.putFrame_txlen, txlen]), fun i hi => ?_⟩
  rw [State.putFrame_txlen, txlen] at hi
  have read := Memory.read_setBytes s.mem .txf 0 i frame hi (by omega)
  rw [Nat.zero_add] at read
  exact Option.isSome_iff_exists.2 ⟨_, read⟩

/-- The frame of a legal FRAME_DATA has 3 to 32 bytes less the optional sequence byte (41_framing.md R140). -/
theorem length_dataFrame_of_legal {s : State} {h : Bool} {q n : Byte}
    (legal : s.firstCause (.frameData h q n) = none) :
    2 ≤ (dataFrame h q (s.bytes .pld n.toNat)).length ∧ (dataFrame h q (s.bytes .pld n.toNat)).length ≤ 32 := by
  have fits : seqFieldFits h q = true := by
    by_contra misfit
    rw [firstCause_frameData_of_misfit s n (Bool.eq_false_iff.2 misfit)] at legal
    cases legal
  have range : ¬ (n.toNat < 1 ∨ 31 - h.toNat < n.toNat) := by
    intro out
    rw [firstCause_frameData_of_fits s n (seqFieldFits_iff.1 fits), if_pos out] at legal
    cases legal
  have short := Bool.toNat_le h
  rw [length_dataFrame, State.length_bytes]
  omega

/-- A legal command's effects keep the frame whole: a frame that is built has 2 to 32 bytes, and no other write removes
a byte. -/
theorem FrameStored.effectsOf {s : State} (h : FrameStored s.mem s.txlen) {i : Instr} (legal : s.firstCause i = none) :
    FrameStored (effectsOf i s).mem (effectsOf i s).txlen := by
  cases i with
  | frameData hasSeq seq len => exact .putFrame h.canonical (length_dataFrame_of_legal legal)
  | frameAck kind seq => exact .putFrame h.canonical (by simp)
  | frameSwtag kind hasSeq seq => exact .putFrame h.canonical (by cases hasSeq <;> simp)
  | frameTeardown => exact .putFrame h.canonical (by decide)
  | inject => exact h.of_grows (Memory.wf_setBuf _ _ _ h.canonical) (Memory.grows_setBuf _ _ _ _)
  | loopback => exact h.of_grows (Memory.wf_setBytes _ _ _ h.canonical) (Memory.grows_setBytes _ _ _ _)
  | nop | crcClr | crcByte | crcPld | check | tmrArm | tmrDisarm | retryClr | reservedE | reservedF => exact h

@[simp] theorem State.writeTarget_txlen (s : State) (c e : Bool) (t : Target) (w : Word) (strb : BitVec 4) :
    (s.writeTarget c e t w strb).txlen = s.txlen := by
  unfold State.writeTarget
  split <;> rfl

theorem FrameStored.writeTarget {s : State} (h : FrameStored s.mem s.txlen) (c e : Bool) (t : Target) (w : Word)
    (strb : BitVec 4) : FrameStored (s.writeTarget c e t w strb).mem (s.writeTarget c e t w strb).txlen := by
  have lanes : ∀ b j, FrameStored (s.mem.setLanes b j w strb) s.txlen := fun b j =>
    h.of_grows (Memory.wf_setLanes b j w strb h.canonical) (Memory.grows_setLanes _ b j w strb)
  cases t with
  | buf b j =>
    cases b with
    | pld | rxf => exact lanes _ _
    | txf => exact h
  | id | ctrl | cmd | status | crc | txlen | rxlen | rxinfo | table | tload | tcnt | retry | err | unmapped => exact h

/-! ### ERR -/

/-- No command's effects touch `ERR` (60_exceptions.md R205). -/
@[simp] theorem effectsOf_err (i : Instr) (s : State) : (effectsOf i s).err = s.err := by
  cases i <;> rfl

theorem ErrReg.legal_clear : (⟨0, 0⟩ : ErrReg).Legal :=
  ⟨Nat.zero_le 8, fun _ => rfl⟩

theorem Cause.code_le (c : Cause) : c.code.toNat ≤ 8 := by cases c <;> decide

theorem Cause.eq_ovrWrite_of_code {c : Cause} (h : c.code = 0 ∨ c.code = 8) : c = .ovrWrite := by
  revert h
  cases c <;> decide

theorem ErrReg.Legal.capture {e : ErrReg} (h : e.Legal) {c : Cause} {op : BitVec 4}
    (hop : c = .ovrWrite → op = 0) : (e.capture c op).Legal := by
  unfold ErrReg.capture
  split
  · exact ⟨c.code_le, fun code => hop (Cause.eq_ovrWrite_of_code code)⟩
  · exact h

theorem ErrReg.Legal.overrun {s : State} (h : s.err.Legal) (t : Target) (w : Word) : (s.overrun t w).err.Legal := by
  unfold State.overrun
  split
  · exact h.capture nofun
  · exact h.capture fun _ => rfl

theorem ErrReg.Legal.writeTarget {s : State} (h : s.err.Legal) (c e : Bool) (t : Target) (w : Word)
    (strb : BitVec 4) : (s.writeTarget c e t w strb).err.Legal := by
  cases t with
  | err => exact ErrReg.legal_clear
  | buf b j => cases b <;> exact h
  | id | ctrl | cmd | status | crc | txlen | rxlen | rxinfo | table | tload | tcnt | retry | unmapped => exact h

/-! ### The timer -/

/-- A tick that leaves the timer armed leaves ticks (60_exceptions.md R220). -/
theorem TimerLegal.afterTick {s : State} (h : TimerLegal s.status.armed s.tcnt) (tick : Bool) :
    TimerLegal (s.afterTick tick).status.armed (s.afterTick tick).tcnt := by
  cases tick with
  | false => exact h
  | true =>
    rw [afterTick_true]
    by_cases armed : s.status.armed = true
    · by_cases last : s.tcnt.toNat ≤ 1
      · rw [timerTick_of_expiring (expiring_iff.2 ⟨armed, last⟩)]
        exact nofun
      · rw [timerTick_of_counting armed (by omega)]
        exact fun _ => by bv_omega
    · rw [timerTick_of_disarmed (Bool.eq_false_iff.2 armed)]
      exact h

/-- TMR_ARM is legal only for a count (43_control.md R181). -/
theorem TimerLegal.effectsOf {s : State} (h : TimerLegal s.status.armed s.tcnt) {i : Instr}
    (legal : s.firstCause i = none) : TimerLegal (effectsOf i s).status.armed (effectsOf i s).tcnt := by
  cases i with
  | tmrArm =>
    intro _ zero
    have noCount : s.tload = 0 := zero
    rw [firstCause_tmrArm, if_pos noCount] at legal
    cases legal
  | tmrDisarm => exact nofun
  | nop | crcClr | crcByte | crcPld | frameData | frameAck | frameSwtag | frameTeardown | check | inject | loopback
  | retryClr | reservedE | reservedF => exact h

/-! ### The decode results -/

theorem CheckResult.consistent_checkFrame (hasSeq : Bool) (len : Byte) (frame : List Byte) :
    (checkFrame hasSeq len frame).Consistent := by
  by_cases found : len = 4 ∧ frame = teardownFrame
  · rw [checkFrame_of_teardown hasSeq found]
    exact ⟨by decide, fun _ => ⟨rfl, rfl, rfl, rfl⟩⟩
  · rw [checkFrame_of_not_teardown hasSeq found]
    refine ⟨fun ⟨ack, nak⟩ => ?_, nofun⟩
    exact absurd ((beq_iff_eq.1 ack).symm.trans (beq_iff_eq.1 nak)) (by decide)

/-- Only CHECK has an effect on the decode results (42_check_and_test.md R160). -/
theorem effectsOf_results (i : Instr) (s : State) (h : i.opcode ∉ [0x8#4]) : (effectsOf i s).results = s.results := by
  cases i
  case check => exact absurd h (by simp [Instr.opcode])
  all_goals rfl

theorem CheckResult.Consistent.effectsOf {s : State} (h : s.results.Consistent) (i : Instr) :
    (effectsOf i s).results.Consistent := by
  cases i with
  | check hasSeq => exact consistent_checkFrame hasSeq s.rxlen s.rxFrame
  | nop | crcClr | crcByte | crcPld | frameData | frameAck | frameSwtag | frameTeardown | inject | loopback | tmrArm
  | tmrDisarm | retryClr | reservedE | reservedF => exact h

@[simp] theorem State.overrun_results (s : State) (t : Target) (w : Word) : (s.overrun t w).results = s.results := by
  unfold State.overrun
  split <;> rfl

/-- No bus write reaches the decode results. -/
@[simp] theorem State.writeTarget_results (s : State) (c e : Bool) (t : Target) (w : Word) (strb : BitVec 4) :
    (s.writeTarget c e t w strb).results = s.results := by
  unfold State.writeTarget
  split <;> rfl

@[simp] theorem State.afterTick_results (s : State) (tick : Bool) : (s.afterTick tick).results = s.results := by
  simp [State.results, afterTick_status]

/-! ### The pending command -/

theorem State.PendLegal.of_idle {s : State} (idle : s.pend = none) : s.PendLegal :=
  ⟨fun busy => by simp [State.busy, idle] at busy, fun p hp => by simp [idle] at hp⟩

/-- A pending command stays legal where `DONE` is not set and no operand changes. -/
theorem State.PendLegal.congr {s t : State} (h : s.PendLegal) (pend : t.pend = s.pend)
    (done : s.status.done = false → t.status.done = false) (operands : ∀ i, t.firstCause i = s.firstCause i) :
    t.PendLegal := by
  refine ⟨fun busy => done (h.notDone ?_), fun p hp => ?_⟩
  · rwa [State.busy, pend] at busy
  · obtain ⟨waits, i, decoded, legal⟩ := h.pending p (pend ▸ hp)
    exact ⟨waits, i, decoded, (operands i).trans legal⟩

theorem State.PendLegal.countDown {s : State} (h : s.PendLegal) {p : Pending} (hp : s.pend = some p)
    (more : 1 < p.remaining) : (s.countDown p).PendLegal := by
  obtain ⟨⟨-, most⟩, i, decoded, legal⟩ := h.pending p hp
  have kept : (s.countDown p).firstCause i = s.firstCause i := firstCause_congr i rfl rfl rfl rfl rfl
  refine ⟨fun _ => h.notDone (by rw [State.busy, hp]; rfl), fun q hq => ?_⟩
  obtain rfl := Option.some.inj hq
  exact ⟨⟨Nat.le_sub_one_of_lt more, (Nat.sub_le _ _).trans most⟩, i, decoded, kept.trans legal⟩

/-- An accepted command is legal, its word is its own and its count is `LAT` (70_reset_and_hazards.md R250). -/
theorem State.PendLegal.accept {s : State} {i : Instr} (legal : s.firstCause i = none) : (s.accept i).PendLegal := by
  have kept : (s.accept i).firstCause i = s.firstCause i := firstCause_congr i rfl rfl rfl rfl rfl
  refine ⟨fun _ => rfl, fun p hp => ?_⟩
  obtain rfl := Option.some.inj hp
  exact ⟨⟨Nat.le_add_left 1 _, Fin.isLt _⟩, i, decode_encode i, kept.trans legal⟩

theorem State.overrun_pendLegal {s : State} (h : s.PendLegal) (t : Target) (w : Word) : (s.overrun t w).PendLegal := by
  unfold State.overrun
  split <;> exact h.congr rfl id fun i => firstCause_congr i rfl rfl rfl rfl rfl

/-- No bus write sets `DONE`. -/
theorem State.writeTarget_done (s : State) (c e : Bool) (t : Target) (w : Word) (strb : BitVec 4)
    (h : s.status.done = false) : (s.writeTarget c e t w strb).status.done = false := by
  unfold State.writeTarget
  split <;> simp [Status.clearWritten, h]

/-- A write that passes the gate changes no operand of a pending command (70_reset_and_hazards.md R255). -/
theorem State.PendLegal.writeTarget {s : State} (h : s.PendLegal) (c e : Bool) {t : Target} (w : Word)
    (strb : BitVec 4) (gate : t.gated = true → s.pend = none) : (s.writeTarget c e t w strb).PendLegal := by
  by_cases gated : t.gated = true
  · exact .of_idle ((s.writeTarget_pend c e t w strb).trans (gate gated))
  · obtain ⟨mem, rxlen, tload, -⟩ := s.writeTarget_ungated c e w strb (Bool.eq_false_iff.2 gated)
    exact h.congr (s.writeTarget_pend c e t w strb) (s.writeTarget_done c e t w strb) fun i =>
      firstCause_congr i rxlen (s.writeTarget_txlen c e t w strb) tload mem (s.writeTarget_bufHist c e t w strb)

/-! ### The invariant -/

theorem resetWith_inv (history : List Memory) (inputs : List Inputs) (cycle : Nat) (out : Outputs) :
    (resetWith history inputs cycle out).Inv :=
  State.inv_iff.2 ⟨⟨State.reset_mem_wf, .inl rfl, fun k hk => absurd hk (Nat.not_lt_zero k)⟩,
    ErrReg.legal_clear, nofun, .of_idle rfl, ⟨fun ⟨ack, _⟩ => Bool.noConfusion ack, nofun⟩⟩

/-- The pending word's command is the one the invariant calls legal. -/
theorem State.Inv.legal {s : State} (h : s.Inv) {p : Pending} {i : Instr} (hp : s.pend = some p)
    (decoded : decode p.word = .ok i) : s.firstCause i = none := by
  obtain ⟨-, j, found, legal⟩ := h.pending p hp
  obtain rfl := Except.ok.inj (decoded.symm.trans found)
  exact legal

theorem effectsOf_finish_inv {s : State} (h : s.Inv) {i : Instr} (legal : s.firstCause i = none) :
    (effectsOf i s).finish.Inv := by
  obtain ⟨frame, err, timer, -, results⟩ := State.inv_iff.1 h
  have kept : (effectsOf i s).err.Legal := by rwa [effectsOf_err]
  exact State.inv_iff.2 ⟨frame.effectsOf legal, kept, timer.effectsOf legal, .of_idle rfl, results.effectsOf i⟩

theorem State.Inv.afterTick {s : State} (h : s.Inv) (tick : Bool) : (s.afterTick tick).Inv := by
  obtain ⟨frame, err, timer, pend, results⟩ := State.inv_iff.1 h
  refine State.inv_iff.2 ⟨?_, ?_, timer.afterTick tick, ?_, ?_⟩
  · rwa [State.afterTick_mem, State.afterTick_txlen]
  · rwa [State.afterTick_err]
  · exact pend.congr (s.afterTick_pend tick) (by rw [afterTick_status]; exact id) (firstCause_afterTick s tick)
  · rwa [State.afterTick_results]

theorem State.Inv.overrun {s : State} (h : s.Inv) (t : Target) (w : Word) : (s.overrun t w).Inv := by
  obtain ⟨frame, err, timer, pend, results⟩ := State.inv_iff.1 h
  refine State.inv_iff.2 ⟨?_, err.overrun t w, ?_, State.overrun_pendLegal pend t w, by rwa [State.overrun_results]⟩
  · unfold State.overrun; split <;> exact frame
  · unfold State.overrun; split <;> exact timer

theorem State.Inv.writeTarget {s : State} (h : s.Inv) (c e : Bool) {t : Target} (w : Word) (strb : BitVec 4)
    (gate : t.gated = true → s.pend = none) : (s.writeTarget c e t w strb).Inv := by
  obtain ⟨frame, err, timer, pend, results⟩ := State.inv_iff.1 h
  refine State.inv_iff.2 ⟨frame.writeTarget c e t w strb, err.writeTarget c e t w strb, ?_,
    pend.writeTarget c e w strb gate, by rwa [State.writeTarget_results]⟩
  unfold State.writeTarget
  split <;> exact timer

/-- A word that acceptance rejects leaves the block idle and captures a cause that is no overrun. -/
theorem State.Inv.raiseIllegal {s : State} (h : s.Inv) {c : Cause} (op : BitVec 4) (idle : s.pend = none)
    (hc : c ≠ .ovrWrite) : (s.raiseIllegal c op).Inv := by
  obtain ⟨frame, err, timer, -, results⟩ := State.inv_iff.1 h
  exact State.inv_iff.2 ⟨frame, err.capture fun ovr => absurd ovr hc, timer, .of_idle idle, results⟩

theorem inv_keptByCycle : KeptByCycle State.Inv where
  reset := resetWith_inv
  takeInputs s h := by
    obtain ⟨frame, err, timer, pend, results⟩ := State.inv_iff.1 h
    exact State.inv_iff.2 ⟨frame, err, timer,
      pend.congr rfl id fun i => firstCause_congr i rfl rfl rfl rfl rfl, results⟩
  out s o h := by
    obtain ⟨frame, err, timer, pend, results⟩ := State.inv_iff.1 h
    exact State.inv_iff.2 ⟨frame, err, timer,
      pend.congr rfl id fun i => firstCause_congr i rfl rfl rfl rfl rfl, results⟩
  afterTick _ tick h := h.afterTick tick
  countDown s p hp more h := by
    obtain ⟨frame, err, timer, pend, results⟩ := State.inv_iff.1 h
    exact State.inv_iff.2 ⟨frame, err, timer, pend.countDown hp more, results⟩
  completes _ _ _ hp decoded h := effectsOf_finish_inv h (h.legal hp decoded)
  finish s h := by
    obtain ⟨frame, err, timer, -, results⟩ := State.inv_iff.1 h
    exact State.inv_iff.2 ⟨frame, err, timer, .of_idle rfl, results⟩
  accept s i legal h := by
    obtain ⟨frame, err, timer, -, results⟩ := State.inv_iff.1 h
    exact State.inv_iff.2 ⟨frame, err, timer, .accept legal, results⟩
  raiseIllegal _ _ op idle hc h := h.raiseIllegal op idle hc
  overrun _ t w h := h.overrun t w
  writeTarget _ c e q _ gate h := h.writeTarget c e q.wdata q.wstrb gate

/-- Settles O58: every operation of a cycle keeps each part of the invariant. -/
theorem stepKeepsInvariant : Obligations.StepKeepsInvariant :=
  fun _ _ h hs => inv_keptByCycle.step h hs

/-- Settles O57: at reset nothing is written, armed, pending or valid. -/
theorem resetStateMeetsInvariant : Obligations.ResetStateMeetsInvariant :=
  ⟨resetWith_inv [] [] 0 _, nofun⟩

end Sys2Proof.Machine
end

section
/-! PROOF. Who may write what: `TXLEN`, the decode results, `ERR`, the bytes of the buffers, and what a waiting command
holds still (10_state.md sections 3 and 4; 60_exceptions.md R205; 70_reset_and_hazards.md R255, R256). -/

namespace Sys2Proof.Machine

open Sys2Proof.Claims

/-! ### TXLEN and the decode results -/

/-- Only the framing commands have an effect on `TXLEN` (41_framing.md R147). -/
theorem effectsOf_txlen (i : Instr) (s : State) (h : i.opcode ∉ [0x4#4, 0x5#4, 0x6#4, 0x7#4]) :
    (effectsOf i s).txlen = s.txlen := by
  cases i
  case frameData | frameAck | frameSwtag | frameTeardown => exact absurd h (by simp [Instr.opcode])
  all_goals rfl

theorem txlen_writtenOnlyBy : WrittenOnlyBy State.txlen [0x4, 0x5, 0x6, 0x7] where
  takeInputs _ := rfl
  out _ _ := rfl
  afterTick := State.afterTick_txlen
  countDown := State.countDown_txlen
  finish := State.finish_txlen
  effects := effectsOf_txlen
  accept := State.accept_txlen
  raiseIllegal := State.raiseIllegal_txlen
  overrun s t w := by unfold State.overrun; split <;> rfl
  writeTarget := State.writeTarget_txlen

/-- Settles O43: `TXLEN` is a part of the state that only the framing commands' completions write. -/
theorem onlyFramingWritesTxlen : Obligations.OnlyFramingWritesTxlen :=
  fun _ _ => txlen_writtenOnlyBy.reset_or_completes_of_step_ne

theorem results_writtenOnlyBy : WrittenOnlyBy State.results [0x8] where
  takeInputs _ := rfl
  out _ _ := rfl
  afterTick := State.afterTick_results
  countDown _ _ := rfl
  finish _ := rfl
  effects := effectsOf_results
  accept _ _ := rfl
  raiseIllegal _ _ _ := rfl
  overrun := State.overrun_results
  writeTarget := State.writeTarget_results

/-- Settles O44: the decode results are a part of the state that only CHECK's completion writes. -/
theorem onlyCheckWritesResults : Obligations.OnlyCheckWritesResults :=
  fun _ _ => results_writtenOnlyBy.reset_or_completes_of_step_ne

theorem effectsOf_bufHist (i : Instr) (s : State) : (effectsOf i s).bufHist = s.bufHist := by
  cases i <;> rfl

/-- Nothing but a reset writes the history of the buffers (log 4). -/
theorem bufHist_writtenOnlyBy : WrittenOnlyBy State.bufHist [] where
  takeInputs _ := rfl
  out _ _ := rfl
  afterTick := State.afterTick_bufHist
  countDown := State.countDown_bufHist
  finish := State.finish_bufHist
  effects i s _ := effectsOf_bufHist i s
  accept := State.accept_bufHist
  raiseIllegal := State.raiseIllegal_bufHist
  overrun s t w := by unfold State.overrun; split <;> rfl
  writeTarget := State.writeTarget_bufHist

theorem step_bufHist {s t : State} (hs : step s = .next t) (run : s.nextInputs.rst = false) :
    t.bufHist = s.bufHist := by
  by_contra changed
  rcases bufHist_writtenOnlyBy.reset_or_completes_of_step_ne hs changed with reset | completes
  · exact Bool.noConfusion (run.symm.trans reset)
  · exact not_completesOneOf_nil s completes

/-! ### A waiting command (70_reset_and_hazards.md R255, R256) -/

section
variable {s t : State} {p : Pending}

/-- What only completions write stays while a command waits. -/
theorem WrittenOnlyBy.step_eq_of_waiting {α : Type} {f : State → α} {ops : List (BitVec 4)}
    (hf : WrittenOnlyBy f ops) (hp : s.pend = some p) (more : 1 < p.remaining) (run : s.nextInputs.rst = false)
    (hs : step s = .next t) : f t = f s := by
  by_contra changed
  rcases hf.reset_or_completes_of_step_ne hs changed with reset | ⟨q, -, hq, due, -⟩
  · exact Bool.noConfusion (run.symm.trans reset)
  · obtain rfl : p = q := Option.some.inj (hp.symm.trans hq)
    omega

/-- What the busy gate guards: a request to a busy block changes no buffer, `RXLEN`, `TLOAD` or `RX_VALID`. -/
theorem requested_guarded_of_busy {s0 : State} (busy : s0.pend ≠ none) (tick : Bool) (req : Option Request)
    (u : State) :
    (s0.requested tick req u).mem = u.mem ∧ (s0.requested tick req u).rxlen = u.rxlen ∧
    (s0.requested tick req u).tload = u.tload ∧
    (s0.requested tick req u).status.rxValid = u.status.rxValid := by
  rcases requested_cases s0 tick req u fun idle => absurd idle busy with
    he | ⟨-, q, -, he⟩ | ⟨idle, -⟩ | ⟨idle, -⟩ | ⟨q, -, -, -, -, gate, he⟩
  · rw [he]
    exact ⟨rfl, rfl, rfl, rfl⟩
  · rw [he]
    unfold State.overrun
    split <;> exact ⟨rfl, rfl, rfl, rfl⟩
  · exact absurd idle busy
  · exact absurd idle busy
  · rw [he]
    exact u.writeTarget_ungated _ _ _ _ (Bool.eq_false_iff.2 fun gated => busy (gate gated))

theorem step_guarded_of_waiting (hp : s.pend = some p) (more : 1 < p.remaining) (run : s.nextInputs.rst = false)
    (hs : step s = .next t) :
    t.mem = s.mem ∧ t.rxlen = s.rxlen ∧ t.tload = s.tload ∧ t.status.rxValid = s.status.rxValid := by
  obtain rfl := Host.Outcome.next.inj ((step_eq s).symm.trans hs)
  have ticked : (s.takeInputs.afterTick s.nextInputs.tick).pend = some p := (State.afterTick_pend _ _).trans hp
  have busy : s.takeInputs.pend ≠ none := by simp [hp]
  have kept := requested_guarded_of_busy busy s.nextInputs.tick s.nextInputs.req
    ((s.takeInputs.afterTick s.nextInputs.tick).countDown p)
  rw [cycled_of_run _ run, advanced_of_waiting ticked more]
  simpa [afterTick_status] using kept

theorem step_busy_of_waiting (hp : s.pend = some p) (more : 1 < p.remaining) (run : s.nextInputs.rst = false)
    (hs : step s = .next t) : t.busy = true := by
  obtain rfl := Host.Outcome.next.inj ((step_eq s).symm.trans hs)
  rw [State.busy, cycled_pend_of_waiting (s := s.takeInputs) run hp more]
  rfl

end

/-- Settles O41: `CRC.REM`, `TXLEN` and the results are written by completions only, and the gate guards the rest. -/
theorem nothingShowsBeforeCompletion : Obligations.NothingShowsBeforeCompletion := by
  intro s t p hp more run hs
  obtain ⟨mem, rxlen, tload, rxValid⟩ := step_guarded_of_waiting hp more run hs
  have results := results_writtenOnlyBy.step_eq_of_waiting hp more run hs
  have bufHist := step_bufHist hs run
  exact ⟨crcRem_writtenOnlyBy.step_eq_of_waiting hp more run hs,
    txlen_writtenOnlyBy.step_eq_of_waiting hp more run hs, rxlen, congrArg CheckResult.info results, tload, mem,
    bufHist, results, rxValid, step_busy_of_waiting hp more run hs,
    fun a => State.readByte_congr a (by rw [mem]) bufHist⟩

/-! ### ERR (60_exceptions.md R205) -/

theorem ErrReg.capture_of_captured {e : ErrReg} (h : e.cause ≠ 0) (c : Cause) (op : BitVec 4) :
    e.capture c op = e :=
  if_neg h

theorem Target.ofAddr_eq_err_iff {a : BitVec 8} : Target.ofAddr a = .err ↔ a = 0x30 := by
  revert a
  decide +kernel

/-- A register write that passes the bus checks has all four strobes (20_memory.md R63). -/
theorem Request.strobes_of_control {q : Request} (hw : q.write = true) (ok : q.busErr = false)
    (control : q.target.control = true) : q.wstrb = 0xF := by
  by_contra partialStrobes
  exact Bool.eq_false_iff.1 ok (Request.busErr_iff.2 (.inr (.inr ⟨hw, .inr ⟨control, partialStrobes⟩⟩)))

theorem State.overrun_err_of_captured {s : State} (h : s.err.cause ≠ 0) (t : Target) (w : Word) :
    (s.overrun t w).err = s.err := by
  unfold State.overrun
  split <;> exact ErrReg.capture_of_captured h _ _

/-- Of all targets only `ERR` reaches `ERR`, and clears it (10_state.md R43). -/
theorem State.writeTarget_err (s : State) (c e : Bool) (t : Target) (w : Word) (strb : BitVec 4) :
    (s.writeTarget c e t w strb).err = if t = .err then ⟨0, 0⟩ else s.err := by
  cases t with
  | buf b j => cases b <;> rfl
  | id | ctrl | cmd | status | crc | txlen | rxlen | rxinfo | table | tload | tcnt | retry | err | unmapped => rfl

theorem advanced_err (s : State) : s.advanced.err = s.err := by
  rcases advanced_cases s with ⟨-, he⟩ | ⟨p, -, -, he⟩ | ⟨p, -, -, ⟨i, -, he⟩ | ⟨-, he⟩⟩ <;> rw [he]
  · rfl
  · exact effectsOf_err i s
  · rfl

/-- A request leaves a captured error, or it is a write to `ERR` and clears it. -/
theorem requested_err_of_captured (s0 : State) (tick : Bool) (req : Option Request) {u : State}
    (idle : s0.pend = none → u.pend = none) (h : u.err.cause ≠ 0) :
    (s0.requested tick req u).err = u.err ∨
      ((s0.requested tick req u).err = ⟨0, 0⟩ ∧
        ∃ q, req = some q ∧ q.write = true ∧ q.addr = 0x30 ∧ q.wstrb = 0xF) := by
  rcases requested_cases s0 tick req u idle with
    he | ⟨-, q, -, he⟩ | ⟨-, c, op, -, -, he⟩ | ⟨-, i, -, he⟩ | ⟨q, hreq, hw, ok, -, -, he⟩ <;> rw [he]
  · exact .inl rfl
  · exact .inl (State.overrun_err_of_captured h _ _)
  · exact .inl (ErrReg.capture_of_captured h c op)
  · exact .inl rfl
  · rw [State.writeTarget_err]
    by_cases target : q.target = .err
    · rw [if_pos target]
      exact .inr ⟨rfl, q, hreq, hw, Target.ofAddr_eq_err_iff.1 target,
        Request.strobes_of_control hw ok (by rw [target]; rfl)⟩
    · rw [if_neg target]
      exact .inl rfl

/-- Settles O38: the tick and the engine leave `ERR`, a second error is not captured, and no other write reaches it. -/
theorem firstErrorStays : Obligations.FirstErrorStays := by
  intro s t hs run captured
  obtain rfl := Host.Outcome.next.inj ((step_eq s).symm.trans hs)
  have before : (s.takeInputs.afterTick s.nextInputs.tick).advanced.err = s.err :=
    (advanced_err _).trans (State.afterTick_err _ _)
  have after := requested_err_of_captured s.takeInputs s.nextInputs.tick s.nextInputs.req
    (advanced_afterTick_idle s.nextInputs.tick) (before ▸ captured)
  rw [before] at after
  rw [cycled_of_run _ run]
  exact after

/-! ### The bytes of the buffers (10_state.md R45, R46, R47) -/

/-- The request, as a write, stores the byte at offset `a` of buffer `b`: a strobed lane of its word (20_memory.md R64). -/
structure Request.Stores (q : Request) (b : Buf) (a : Nat) : Prop where
  target : ∃ j, q.target = .buf b j
  writable : b ≠ .txf
  window : b.base ≤ q.addr.toNat ∧ q.addr.toNat + 4 ≤ b.base + 32
  aligned : (q.addr.toNat - b.base) % 4 = 0
  lane : q.addr.toNat ≤ a ∧ a < q.addr.toNat + 4
  strobe : q.wstrb.getLsbD (a - q.addr.toNat) = true

/-- A word write to `PLD` or `RXF` reaches the bytes it stores and no other. -/
theorem Request.stores_of_setLanes_ne {q : Request} (ok : q.busErr = false) {b : Buf} {j : Nat}
    (target : q.target = .buf b j) (writable : b ≠ .txf) {m : Memory} {a : Nat}
    (changed : (m.setLanes b j q.wdata q.wstrb).read a ≠ m.read a) : q.Stores b a := by
  obtain ⟨addr, window, aligned⟩ := Target.ofAddr_buf (Request.aligned ok) target
  rw [Memory.read_setLanes _ _ _ _ _ _ window, ← addr] at changed
  obtain ⟨low, high, strobe⟩ := not_not.1 fun other => changed (if_neg other)
  exact ⟨⟨j, target⟩, writable, by omega, by omega, ⟨low, high⟩, strobe⟩

theorem State.writeTarget_read (s : State) (c e : Bool) {q : Request} (ok : q.busErr = false) (a : Nat) :
    (s.writeTarget c e q.target q.wdata q.wstrb).mem.read a = s.mem.read a ∨ ∃ b, q.Stores b a := by
  have lanes : ∀ b j, q.target = .buf b j → b ≠ .txf →
      (s.mem.setLanes b j q.wdata q.wstrb).read a = s.mem.read a ∨ ∃ b, q.Stores b a := fun b j target writable =>
    or_iff_not_imp_left.2 fun changed => ⟨b, Request.stores_of_setLanes_ne ok target writable changed⟩
  cases target : q.target with
  | buf b j =>
    cases b with
    | pld => exact lanes .pld j target nofun
    | rxf => exact lanes .rxf j target nofun
    | txf => exact .inl rfl
  | id | ctrl | cmd | status | crc | txlen | rxlen | rxinfo | table | tload | tcnt | retry | err | unmapped =>
    exact .inl rfl

/-- A request changes a byte only as a host write to an idle block. -/
theorem requested_read (s0 : State) (tick : Bool) (req : Option Request) {u : State}
    (idle : s0.pend = none → u.pend = none) (a : Nat) :
    (s0.requested tick req u).mem.read a = u.mem.read a ∨
      ∃ q b, req = some q ∧ q.write = true ∧ s0.pend = none ∧ q.Stores b a := by
  rcases requested_cases s0 tick req u idle with
    he | ⟨-, q, -, he⟩ | ⟨-, c, op, -, -, he⟩ | ⟨-, i, -, he⟩ | ⟨q, hreq, hw, ok, -, gate, he⟩ <;> rw [he]
  · exact .inl rfl
  · unfold State.overrun
    split <;> exact .inl rfl
  · exact .inl rfl
  · exact .inl rfl
  · refine (u.writeTarget_read _ _ ok a).imp_right ?_
    rintro ⟨b, stores⟩
    have gated : q.target.gated = true := by
      obtain ⟨j, target⟩ := stores.target
      have writable := stores.writable
      rw [target]
      cases b with
      | pld | rxf => rfl
      | txf => exact absurd rfl writable
    exact ⟨q, b, hreq, hw, gate gated, stores⟩

/-- The engine changes a byte only by completing a framing command or INJECT, in `TXF`, or LOOPBACK, in `RXF`. -/
theorem advanced_read (s : State) (a : Nat) :
    s.advanced.mem.read a = s.mem.read a ∨
    (CompletesOneOf s [0x4, 0x5, 0x6, 0x7, 0x9] ∧ 0x60 ≤ a ∧ a < 0x80) ∨
    (CompletesOneOf s [0xA] ∧ 0x80 ≤ a ∧ a < 0xA0) := by
  rcases advanced_cases s with ⟨-, he⟩ | ⟨p, -, -, he⟩ | ⟨p, hp, due, ⟨i, hd, he⟩ | ⟨-, he⟩⟩ <;> rw [he]
  · exact .inl rfl
  · exact .inl rfl
  · rcases effectsOf_read i s a with kept | ⟨listed, txf⟩ | ⟨loopback, rxf⟩
    · exact .inl kept
    · exact .inr (.inl ⟨⟨p, i, hp, due, hd, listed⟩, txf⟩)
    · exact .inr (.inr ⟨⟨p, i, hp, due, hd, List.mem_singleton.2 loopback⟩, rxf⟩)
  · exact .inl rfl

/-- What a step without reset can do to a byte of the buffers. -/
theorem step_read {s t : State} (hs : step s = .next t) (run : s.nextInputs.rst = false) (a : Nat) :
    t.mem.read a = s.mem.read a ∨
    (∃ q b, s.nextInputs.req = some q ∧ q.write = true ∧ s.pend = none ∧ q.Stores b a) ∨
    (CompletesOneOf s [0x4, 0x5, 0x6, 0x7, 0x9] ∧ 0x60 ≤ a ∧ a < 0x80) ∨
    (CompletesOneOf s [0xA] ∧ 0x80 ≤ a ∧ a < 0xA0) := by
  obtain rfl := Host.Outcome.next.inj ((step_eq s).symm.trans hs)
  have pend : (s.takeInputs.afterTick s.nextInputs.tick).pend = s.pend := State.afterTick_pend _ _
  rw [cycled_of_run _ run]
  rcases requested_read s.takeInputs s.nextInputs.tick s.nextInputs.req
    (advanced_afterTick_idle s.nextInputs.tick) a with kept | host
  · rcases advanced_read (s.takeInputs.afterTick s.nextInputs.tick) a with still | ⟨completes, txf⟩ | ⟨completes, rxf⟩
    · refine .inl (kept.trans (still.trans ?_))
      rw [State.afterTick_mem, State.takeInputs_mem]
    · exact .inr (.inr (.inl ⟨completesOneOf_of_pend_eq pend completes, txf⟩))
    · exact .inr (.inr (.inr ⟨completesOneOf_of_pend_eq pend completes, rxf⟩))
  · exact .inr (.inl host)

/-- The windows are disjoint, so a stored byte of a buffer was stored to that buffer, in its own word and lane. -/
theorem Request.Stores.word_of_buffer {q : Request} {b b' : Buf} {k : Nat} (h : q.Stores b' (b.base + k)) (hk : k < 32) :
    b' = b ∧ b.base + k - k % 4 = q.addr.toNat ∧ q.wstrb.getLsbD (k % 4) = true := by
  obtain ⟨-, -, window, aligned, lane, strobe⟩ := h
  have same : b' = b := by
    cases b <;> cases b' <;> simp only [Buf.base] at window lane ⊢ <;> omega
  subst same
  have offset : b'.base + k - q.addr.toNat = k % 4 := by omega
  exact ⟨rfl, by omega, offset ▸ strobe⟩

/-- Settles O45: without a reset a byte that reads differently was written, and the offsets of the three windows say by
whom. -/
theorem bufferBytesHaveKnownWriters : Obligations.BufferBytesHaveKnownWriters := by
  intro s t b k hs run hk changed
  have written : t.mem.read (b.base + k) ≠ s.mem.read (b.base + k) := fun same =>
    changed (State.readByte_congr _ same (step_bufHist hs run))
  rcases (step_read hs run (b.base + k)).resolve_left written with
    ⟨q, b', hreq, hw, idle, stores⟩ | ⟨completes, txf⟩ | ⟨completes, rxf⟩
  · have writable := stores.writable
    obtain ⟨rfl, word⟩ := stores.word_of_buffer hk
    cases b' with
    | pld => exact ⟨q, hreq, hw, idle, word⟩
    | txf => exact absurd rfl writable
    | rxf => exact .inl ⟨q, hreq, hw, idle, word⟩
  · cases b <;> simp only [Buf.base] at txf
    case txf => exact completes
    all_goals omega
  · cases b <;> simp only [Buf.base] at rxf
    case rxf => exact .inr completes
    all_goals omega

end Sys2Proof.Machine
end

section
/-! PROOF. `RX_VALID` tells the truth (10_state.md R33): CHECK sets it with its results, and whatever writes the frame it
decoded clears it. -/

namespace Sys2Proof.Machine

/-- Results that were current stay so where neither they nor the frame in `RXF` change. -/
theorem State.RxCurrent.congr {s t : State} (h : s.RxCurrent) (valid : t.status.rxValid = true → s.status.rxValid = true)
    (results : t.results = s.results) (rxlen : t.rxlen = s.rxlen)
    (rxf : ∀ k, k < 32 → t.mem.read (0x80 + k) = s.mem.read (0x80 + k)) (hist : t.bufHist = s.bufHist) :
    t.RxCurrent := by
  intro on
  obtain ⟨hasSeq, decoded⟩ := h (valid on)
  have frame : t.rxFrame = s.rxFrame := by
    rw [State.rxFrame, State.rxFrame, rxlen]
    exact State.bytes_congr .rxf _ fun k hk => State.readByte_congr _ (rxf k hk) hist
  exact ⟨hasSeq, by rw [results, rxlen, frame, decoded]⟩

theorem State.rxCurrent_of_stale {s : State} (stale : s.status.rxValid = false) : s.RxCurrent :=
  fun on => Bool.noConfusion (stale.symm.trans on)

/-- Every command but LOOPBACK leaves `RXLEN`; every command but LOOPBACK and CHECK leaves `RX_VALID`. -/
theorem effectsOf_rxlen_rxValid (i : Instr) (s : State) (h : i.opcode ∉ [0x8#4, 0xA#4]) :
    (effectsOf i s).rxlen = s.rxlen ∧ (effectsOf i s).status.rxValid = s.status.rxValid := by
  cases i
  case check | loopback => exact absurd h (by simp [Instr.opcode])
  all_goals exact ⟨rfl, rfl⟩

/-- A completion keeps `RX_VALID` truthful: CHECK writes what it decodes, LOOPBACK clears the flag, the others change
neither side. -/
theorem State.RxCurrent.effectsOf_finish {s : State} (h : s.RxCurrent) (i : Instr) :
    (effectsOf i s).finish.RxCurrent := by
  by_cases other : i.opcode ∈ [0x8#4, 0xA#4]
  · cases i with
    | check hasSeq => exact fun _ => ⟨hasSeq, rfl⟩
    | loopback => exact rxCurrent_of_stale rfl
    | nop | crcClr | crcByte | crcPld | frameData | frameAck | frameSwtag | frameTeardown | inject | tmrArm
    | tmrDisarm | retryClr | reservedE | reservedF => simp [Instr.opcode] at other
  · obtain ⟨rxlen, rxValid⟩ := effectsOf_rxlen_rxValid i s other
    simp only [List.mem_cons, List.not_mem_nil, or_false, not_or] at other
    obtain ⟨notCheck, notLoopback⟩ := other
    refine h.congr (fun on => rxValid ▸ on) (effectsOf_results i s (by simpa using notCheck)) rxlen (fun k hk => ?_)
      (effectsOf_bufHist i s)
    rcases effectsOf_read i s (0x80 + k) with kept | ⟨-, txf⟩ | ⟨loopback, -⟩
    · exact kept
    · omega
    · exact absurd loopback notLoopback

/-- A write to another target than `RXLEN` and `RXF` leaves `RXLEN` and `RX_VALID`; a write to those two clears the
flag. -/
theorem State.writeTarget_rx (s : State) (c e : Bool) (t : Target) (w : Word) (strb : BitVec 4) :
    (s.writeTarget c e t w strb).status.rxValid = false ∨
    ((∀ j, t ≠ .buf .rxf j) ∧ (s.writeTarget c e t w strb).rxlen = s.rxlen ∧
      (s.writeTarget c e t w strb).status.rxValid = s.status.rxValid) := by
  cases t with
  | rxlen => exact .inl rfl
  | buf b j =>
    cases b with
    | rxf => exact .inl rfl
    | pld | txf => exact .inr ⟨nofun, rfl, rfl⟩
  | id | ctrl | cmd | status | crc | txlen | rxinfo | table | tload | tcnt | retry | err | unmapped =>
    exact .inr ⟨nofun, rfl, rfl⟩

theorem State.RxCurrent.writeTarget {s : State} (h : s.RxCurrent) (c e : Bool) {q : Request} (ok : q.busErr = false) :
    (s.writeTarget c e q.target q.wdata q.wstrb).RxCurrent := by
  rcases s.writeTarget_rx c e q.target q.wdata q.wstrb with stale | ⟨notRxf, rxlen, rxValid⟩
  · exact rxCurrent_of_stale stale
  · refine h.congr (fun on => rxValid ▸ on) (s.writeTarget_results _ _ _ _ _) rxlen (fun k hk => ?_)
      (s.writeTarget_bufHist _ _ _ _ _)
    refine (s.writeTarget_read c e ok (0x80 + k)).resolve_right ?_
    rintro ⟨b, stores⟩
    obtain ⟨j, target⟩ := stores.target
    obtain ⟨rfl, -⟩ := stores.word_of_buffer (b := .rxf) hk
    exact notRxf j target

theorem rxCurrent_keptByCycle : KeptByCycle State.RxCurrent where
  reset _ _ _ _ := State.rxCurrent_of_stale rfl
  takeInputs _ h := h.congr id rfl rfl (fun _ _ => rfl) rfl
  out _ _ h := h.congr id rfl rfl (fun _ _ => rfl) rfl
  afterTick s tick h := h.congr (by rw [afterTick_status]; exact id) (s.afterTick_results tick) (s.afterTick_rxlen tick)
    (fun _ _ => by rw [State.afterTick_mem]) (s.afterTick_bufHist tick)
  countDown _ _ _ _ h := h.congr id rfl rfl (fun _ _ => rfl) rfl
  completes _ _ i _ _ h := h.effectsOf_finish i
  finish _ h := h.congr id rfl rfl (fun _ _ => rfl) rfl
  accept _ _ _ h := h.congr id rfl rfl (fun _ _ => rfl) rfl
  raiseIllegal _ _ _ _ _ h := h.congr id rfl rfl (fun _ _ => rfl) rfl
  overrun s t w h := by
    unfold State.overrun
    split <;> exact h.congr id rfl rfl (fun _ _ => rfl) rfl
  writeTarget _ c e _ ok _ h := h.writeTarget c e ok

/-- Settles O59: every operation of a cycle keeps `RX_VALID` truthful. -/
theorem stepKeepsRxCurrent : Obligations.StepKeepsRxCurrent :=
  fun _ _ h hs => rxCurrent_keptByCycle.step h hs

end Sys2Proof.Machine
end

section
/-! PROOF. One step: the next inputs of the list, the command it runs, and that it always answers (00_scope.md R6;
60_exceptions.md R200; 70_reset_and_hazards.md R250, R251, R253). -/

namespace Sys2Proof.Machine

open Sys2Proof.Claims

/-- Settles O5: the step takes the head of the list. -/
theorem stepIsOneCycle : Obligations.StepIsOneCycle := by
  intro s x xs h
  rw [step, State.nextInputs, State.takeInputs, h]
  rfl

/-- Settles O9: the step's outcome is a next state in every case. -/
theorem everyStepAnswersNext : Obligations.EveryStepAnswersNext :=
  fun s => ⟨_, step_eq s⟩

/-- The cycle of a `CMD` write to an idle block presents the word's command in the state after the tick. -/
theorem cycleWith_cmdRequest_of_idle {s : State} {x : Inputs} {w : Word} {i : Instr} (hq : Requests x (cmdRequest w))
    (idle : s.pend = none) (decoded : decode w = .ok i) :
    cycleWith x s =
      andThen (exec i (s.afterTick x.tick)) fun t => .next { t with out := ⟨⟨0, false⟩, s.irq⟩ } := by
  obtain ⟨run, hreq⟩ := hq
  have still : (s.afterTick x.tick).pend = none := (s.afterTick_pend x.tick).trans idle
  have out : s.outputs x = ⟨⟨0, false⟩, s.irq⟩ := by
    simp [State.outputs, run, hreq, State.respond_cmdRequest]
  rw [cycleWith_eq, cycled_of_run s run, out, hreq, requested_cmdRequest_of_idle idle, advanced_of_idle still,
    written_of_ok still decoded, exec_of_idle i still, andThen_next]

/-- Settles O6: the tick, then acceptance. -/
theorem stepRunsWrittenCommand : Obligations.StepRunsWrittenCommand := by
  intro s w i x xs hin hq idle decoded
  exact (stepIsOneCycle s x xs hin).trans (cycleWith_cmdRequest_of_idle hq idle decoded)

/-- The engine's part of a cycle with a due command is that command. -/
theorem advance_of_due {s : State} {p : Pending} {i : Instr} (hp : s.pend = some p) (due : p.remaining ≤ 1)
    (decoded : decode p.word = .ok i) : advance s = exec i s := by
  rw [advance_eq, advanced_of_due hp due decoded, exec_of_pending i hp]

/-- Settles O7: the tick, then the due command, then the request. -/
theorem stepRunsPendingCommand : Obligations.StepRunsPendingCommand := by
  intro s p i x xs hin run hp one decoded s0
  have ticked : (s0.afterTick x.tick).pend = some p := (s0.afterTick_pend x.tick).trans hp
  have out : s0.outputs x = ⟨s.respond x.req, s.irq⟩ := by
    rw [State.outputs, run]
    rfl
  rw [stepIsOneCycle s x xs hin, cycleWith, run, advance_of_due ticked one.le decoded, out]
  rfl

theorem decode_of_decodeTableWord {nbits w : Nat} {i : Instr} (h : decodeTableWord nbits w = some i) :
    decode (BitVec.ofNat 32 (w % 2 ^ nbits)) = .ok i := by
  unfold decodeTableWord at h
  split at h
  · rename_i decoded
    rw [decoded, Option.some.inj h]
  · cases h

/-- Settles O8: the stored word is a `CMD` write to an idle block, in a cycle without a tick. -/
theorem fetchWordRunsNext : Obligations.FetchWordRunsNext := by
  intro s w i h
  exact stepRunsWrittenCommand (s.withFetchWord 32 w) _ i _ _ rfl ⟨rfl, rfl⟩ rfl (decode_of_decodeTableWord h)

end Sys2Proof.Machine
end

section
/-! PROOF. The CRC8 function as polynomial division over GF(2) (40_crc.md R120, R123), and the checker on the frames of
95_test_vectors.md section 2.4. -/

namespace Sys2Proof.Machine

open Polynomial

/-- Settles O10: a shift tests the top bit; the samples are evaluated. -/
theorem tableIsEightShifts : Obligations.TableIsEightShifts := by
  refine ⟨fun d => ?_, by decide +kernel⟩
  have round : (fun (r : Byte) (_ : Nat) => if r.msb then (r <<< 1) ^^^ 0x07 else r <<< 1) = fun r _ => crcShift r := by
    funext r _
    rw [BitVec.msb_eq_getLsbD_last]
    rfl
  rw [round]
  rfl

/-- Settles O24: the seven frames, decoded. -/
theorem checkVectorsAgree : Obligations.CheckVectorsAgree := by
  unfold Obligations.CheckVectorsAgree
  decide +kernel

/-! ### Bytes as polynomials over GF(2) -/

/-- The polynomial of a byte: bit `k` is the coefficient of `X^k`. -/
noncomputable def bytePoly (b : Byte) : (ZMod 2)[X] :=
  ∑ k ∈ Finset.range 8, if b.getLsbD k then X ^ k else 0

/-- `X^8 + X^2 + X + 1`: the polynomial of `POLY` below its leading term (00_scope.md R7). -/
noncomputable def crcModulus : (ZMod 2)[X] :=
  X ^ 8 + X ^ 2 + X + 1

/-- The message as a polynomial, byte 0's bit 7 first, above what was read before it. -/
noncomputable def messagePoly (before : (ZMod 2)[X]) (m : List Byte) : (ZMod 2)[X] :=
  m.foldl (fun q b => q * X ^ 8 + bytePoly b) before

theorem bytePoly_xor (a b : Byte) : bytePoly (a ^^^ b) = bytePoly a + bytePoly b := by
  have term : ∀ (x y : Bool) (p : (ZMod 2)[X]),
      (if (x ^^ y) = true then p else 0) = (if x = true then p else 0) + if y = true then p else 0 := by
    intro x y p
    cases x <;> cases y <;> simp [CharTwo.add_self_eq_zero]
  simp only [bytePoly, BitVec.getLsbD_xor, term, Finset.sum_add_distrib]

/-- A shift multiplies by `X` and drops bit 7, which would be `X^8`. -/
theorem bytePoly_shiftLeft (r : Byte) :
    bytePoly (r <<< 1) + (if r.getLsbD 7 then X ^ 8 else 0) = X * bytePoly r := by
  simp [bytePoly, Finset.sum_range_succ, mul_add, ← pow_succ', ← sq]

theorem bytePoly_poly : bytePoly Config.poly = X ^ 2 + X + 1 := by
  simp [bytePoly, Config.poly, Finset.sum_range_succ]
  ring

theorem natDegree_crcModulus : crcModulus.natDegree = 8 := by
  unfold crcModulus
  compute_degree!

theorem monic_crcModulus : crcModulus.Monic := by
  unfold crcModulus
  monicity!

/-- A byte's polynomial is its own remainder. -/
theorem bytePoly_modByMonic (b : Byte) : bytePoly b %ₘ crcModulus = bytePoly b := by
  have low : (bytePoly b).degree < 8 := by
    refine (degree_sum_le _ _).trans_lt ((Finset.sup_lt_iff (by decide)).2 fun k hk => ?_)
    split
    · rw [degree_X_pow]
      exact_mod_cast Finset.mem_range.1 hk
    · rw [degree_zero]
      decide
  rw [modByMonic_eq_self_iff monic_crcModulus, degree_eq_natDegree monic_crcModulus.ne_zero, natDegree_crcModulus]
  exact low

/-! ### The fold modulo the polynomial, in the quotient ring -/

/-- In characteristic 2 the modulus says that `X^8` is its lower part. -/
theorem mk_X_pow_eight : AdjoinRoot.mk crcModulus (X ^ 8) = AdjoinRoot.mk crcModulus (X ^ 2 + X + 1) := by
  rw [AdjoinRoot.mk_eq_mk, CharTwo.sub_eq_add, crcModulus, ← add_assoc, ← add_assoc]

theorem mk_crcShift (r : Byte) :
    AdjoinRoot.mk crcModulus (bytePoly (crcShift r)) =
      AdjoinRoot.mk crcModulus X * AdjoinRoot.mk crcModulus (bytePoly r) := by
  rw [← map_mul, ← bytePoly_shiftLeft, crcShift_eq_xor, bytePoly_xor, map_add, map_add]
  split
  · rw [bytePoly_poly, mk_X_pow_eight]
  · simp [bytePoly]

/-- A table entry is the byte times `X^8`. -/
theorem mk_crcTable (d : Byte) :
    AdjoinRoot.mk crcModulus (bytePoly (crcTable d)) =
      AdjoinRoot.mk crcModulus (X ^ 8) * AdjoinRoot.mk crcModulus (bytePoly d) := by
  simp only [crcTable, mk_crcShift, map_pow]
  ring

/-- A fold that starts at the remainder of what was read before ends at the remainder of the whole message. -/
theorem mk_crcFold (m : List Byte) {r : Byte} {before : (ZMod 2)[X]}
    (h : AdjoinRoot.mk crcModulus (bytePoly r) = AdjoinRoot.mk crcModulus (before * X ^ 8)) :
    AdjoinRoot.mk crcModulus (bytePoly (crcFold r m)) =
      AdjoinRoot.mk crcModulus (messagePoly before m * X ^ 8) := by
  induction m generalizing r before with
  | nil => exact h
  | cons b m ih =>
    refine ih ?_
    calc AdjoinRoot.mk crcModulus (bytePoly (crcTable (b ^^^ r)))
        = AdjoinRoot.mk crcModulus (X ^ 8) *
            (AdjoinRoot.mk crcModulus (bytePoly b) + AdjoinRoot.mk crcModulus (bytePoly r)) := by
          rw [mk_crcTable, bytePoly_xor, map_add]
      _ = AdjoinRoot.mk crcModulus ((before * X ^ 8 + bytePoly b) * X ^ 8) := by
          simp only [h, map_add, map_mul]
          ring

/-- Settles O14: the CRC's polynomial is congruent to the message times `X^8`, and of degree below 8. -/
theorem crcIsPolynomialRemainder : Obligations.CrcIsPolynomialRemainder := by
  intro m
  have start : AdjoinRoot.mk crcModulus (bytePoly Config.crcInit) = AdjoinRoot.mk crcModulus (0 * X ^ 8) := by
    simp [bytePoly, Config.crcInit]
  have congruent := AdjoinRoot.mk_eq_mk.1 (mk_crcFold m start)
  calc bytePoly (crc8 m)
      = bytePoly (crc8 m) %ₘ crcModulus := (bytePoly_modByMonic _).symm
    _ = (messagePoly 0 m * X ^ 8) %ₘ crcModulus := modByMonic_eq_of_dvd_sub monic_crcModulus congruent

end Sys2Proof.Machine
end

section
/-! PROOF. A frame's way through the block: a rejected framing command leaves the old one, and a data frame that is built,
looped back and checked gives its payload back, or is reported corrupted if INJECT came between (41_framing.md R140,
R147; 42_check_and_test.md R160 to R167). -/

namespace Sys2Proof.Machine

open Sys2Proof.Claims Sys2Proof.Laws

/-! ### A rejected framing command (41_framing.md section 5) -/

/-- What acceptance makes of any word on an idle block: no frame is touched, and the word is pending exactly if it has no
cause. -/
theorem presentWord_keeps_frame {s : State} (w : Word) (idle : s.pend = none) :
    ∃ t : State, presentWord w s = .next t ∧
      t.txlen = s.txlen ∧ (∀ a, t.readByte a = s.readByte a) ∧
      (t.pend = none ↔ causeOf s w ≠ 0) ∧
      (causeOf s w ≠ 0 → t = rejected s (causeOf s w) (Word.opField w)) := by
  refine ⟨_, presentWord_eq w s, ?_⟩
  rw [causeOf_eq_codeOf_wordCause]
  cases found : s.wordCause w with
  | none =>
    rw [written_of_no_cause idle found]
    exact ⟨rfl, fun _ => rfl, ⟨nofun, fun cause => absurd rfl cause⟩, fun cause => absurd rfl cause⟩
  | some c =>
    rw [written_of_cause idle found]
    exact ⟨rfl, fun _ => rfl, ⟨fun _ => c.code_ne_zero, fun _ => idle⟩, fun _ => rfl⟩

/-- Settles O22: no word changes a frame at acceptance; a command's failing check is a rejection. -/
theorem rejectedFramingKeepsFrame : Obligations.RejectedFramingKeepsFrame := by
  refine ⟨fun s w _ idle => presentWord_keeps_frame w idle, fun s i _ idle illegal => ?_⟩
  obtain ⟨c, cause⟩ := Option.ne_none_iff_exists'.1 illegal
  exact ⟨_, exec_rejects idle cause, rfl, fun _ => rfl, idle, rfl, rfl⟩

/-! ### The frame that was built, and the frame that was received -/

/-- A byte sequence written to a buffer reads back as a whole. -/
theorem State.bytes_putBytes (s : State) (b : Buf) {vs : List Byte} (h : vs.length ≤ 32) :
    (s.putBytes b vs).bytes b vs.length = vs := by
  refine List.ext_getElem (by simpa using h) fun k _ hk => ?_
  simp [State.bytes, State.putBytes_buf s b hk h, hk]

theorem State.putFrame_txlen_toNat (s : State) {frame : List Byte} (h : frame.length ≤ 32) :
    (s.putFrame frame).txlen.toNat = frame.length := by
  rw [State.putFrame_txlen, BitVec.toNat_ofNat]
  omega

theorem State.txFrame_putFrame (s : State) {frame : List Byte} (h : frame.length ≤ 32) :
    (s.putFrame frame).txFrame = frame := by
  rw [State.txFrame, s.putFrame_txlen_toNat h, s.bytes_putFrame h]

/-- LOOPBACK receives the frame that was sent (42_check_and_test.md R167). -/
theorem loopbackEffect_rxFrame {s : State} (fits : s.txlen.toNat ≤ 32) : (loopbackEffect s).rxFrame = s.txFrame := by
  have length : s.txFrame.length = s.txlen.toNat := (s.length_bytes .txf _).trans (Nat.min_eq_left fits)
  calc (loopbackEffect s).rxFrame
      = (s.putBytes .rxf s.txFrame).bytes .rxf s.txlen.toNat := rfl
    _ = (s.putBytes .rxf s.txFrame).bytes .rxf s.txFrame.length := by rw [length]
    _ = s.txFrame := s.bytes_putBytes .rxf (length ▸ fits)

/-- The completions of LOOPBACK and CHECK report what CHECK makes of the transmit frame. -/
theorem loopback_then_check {s : State} {p : Pending} (h : Bool) (hp : s.pend = some p) (fits : s.txlen.toNat ≤ 32) :
    ∃ t u : State, exec .loopback s = .next t ∧ exec (.check h) { t with pend := some p } = .next u ∧
      u.results = checkFrame h s.txlen s.txFrame ∧ u.status.rxValid = true ∧ u.rxlen = s.txlen ∧
      u.rxFrame = s.txFrame := by
  have received : (loopbackEffect s).rxFrame = s.txFrame := loopbackEffect_rxFrame fits
  refine ⟨_, _, exec_completes hp, exec_completes rfl, ?_, rfl, rfl, received⟩
  rw [← received]
  rfl

/-- The byte at position `k` of the received frame. -/
theorem State.rxFrame_getD {s : State} (fits : s.rxlen.toNat ≤ 32) {k : Nat} (hk : k < s.rxlen.toNat) :
    s.rxFrame.getD k 0 = s.buf .rxf k := by
  rw [State.rxFrame, s.bytes_eq_bufBytes .rxf fits, getD_bufBytes s .rxf hk]

/-! ### What CHECK makes of a data frame -/

/-- A frame with another fold than the sentinel's `E1` is not the sentinel (41_framing.md R146). -/
theorem ne_teardownFrame_of_crc8 {frame : List Byte} (h : crc8 frame ≠ 0xE1) : frame ≠ teardownFrame := by
  rintro rfl
  exact h (by decide +kernel)

theorem crc8_dataFrame (h : Bool) (q : Byte) (payload : List Byte) : crc8 (dataFrame h q payload) = 0 :=
  appendedCrcFoldsToZero _

theorem dataFrame_ne_teardownFrame (h : Bool) (q : Byte) (payload : List Byte) :
    dataFrame h q payload ≠ teardownFrame :=
  ne_teardownFrame_of_crc8 (by rw [crc8_dataFrame]; decide)

/-- The payload window of a data frame is its payload (42_check_and_test.md R163). -/
theorem payloadOf_dataFrame (h : Bool) (q : Byte) (payload : List Byte) :
    payloadOf h (dataFrame h q payload) = payload := by
  cases h <;> simp [payloadOf, dataFrame, withCrc, seqBytes]

theorem dataFrame_getD_payload (h : Bool) (q : Byte) {payload : List Byte} {k : Nat} (hk : k < payload.length) :
    (dataFrame h q payload).getD (h.toNat + k) 0 = payload.getD k 0 := by
  cases h <;> simp [dataFrame, withCrc, seqBytes, Nat.add_comm, List.getElem?_append_left hk]

/-- CHECK reports a data frame valid, with its own sequence byte, offset and payload length. -/
theorem checkFrame_dataFrame {h : Bool} {q n : Byte} {payload : List Byte} (fits : h = true ∨ q = 0)
    (len : payload.length = n.toNat) (high : n.toNat ≤ 31 - h.toNat) :
    checkFrame h (BitVec.ofNat 8 (dataFrame h q payload).length) (dataFrame h q payload) =
      ⟨true, false, payload == Kind.text .ack, payload == Kind.text .nak, ⟨q, BitVec.ofNat 8 h.toNat, n⟩⟩ := by
  have seq : (if h then (dataFrame h q payload).headD 0 else 0) = q := by
    cases h with
    | true => rfl
    | false => exact (fits.resolve_left Bool.false_ne_true).symm
  have plen : BitVec.ofNat 8 (dataFrame h q payload).length - 1 - BitVec.ofNat 8 h.toNat = n := by
    have short := Bool.toNat_le h
    rw [length_dataFrame, len]
    apply BitVec.eq_of_toNat_eq
    bv_omega
  rw [checkFrame_of_not_teardown h fun found => dataFrame_ne_teardownFrame h q payload found.2, crc8_dataFrame,
    payloadOf_dataFrame, seq, plen]
  rfl

/-! ### The two chains -/

/-- The completion of a legal FRAME_DATA leaves its frame as the transmit frame. -/
theorem exec_frameData_txFrame {s : State} {p : Pending} {h : Bool} (q : Byte) {n : Byte} (hp : s.pend = some p)
    (high : n.toNat ≤ 31 - h.toNat) :
    ∃ t : State, exec (.frameData h q n) s = .next t ∧ t.txFrame = dataFrame h q (bufBytes s .pld n.toNat) ∧
      t.txlen = BitVec.ofNat 8 (dataFrame h q (bufBytes s .pld n.toNat)).length ∧
      t.txlen.toNat = n.toNat + 1 + h.toNat := by
  have short := Bool.toNat_le h
  have length := length_dataFrame h q (bufBytes s .pld n.toNat)
  rw [length_bufBytes] at length
  have fits : (dataFrame h q (bufBytes s .pld n.toNat)).length ≤ 32 := by omega
  refine ⟨completed (s.putFrame (dataFrame h q (bufBytes s .pld n.toNat))), ?_, s.txFrame_putFrame fits, rfl,
    (s.putFrame_txlen_toNat fits).trans length⟩
  rw [exec_completes hp, effectsOf, frameDataEffect, s.bytes_eq_bufBytes .pld (by omega)]

/-- Settles O27: the transmit frame is received and decoded, and CHECK of a data frame gives its parts back. -/
theorem framedDataPassesCheck : Obligations.FramedDataPassesCheck := by
  intro s p h q n hp fits low high
  have short := Bool.toNat_le h
  obtain ⟨s1, built, frame, txlen, length⟩ := exec_frameData_txFrame q hp high
  obtain ⟨s2, s3, looped, checked, results, rxValid, rxlen, received⟩ :=
    loopback_then_check (s := { s1 with pend := some p }) (p := p) h rfl (length.le.trans (by omega))
  have length3 : s3.rxlen.toNat = n.toNat + 1 + h.toNat := (congrArg BitVec.toNat rxlen).trans length
  replace received : s3.rxFrame = dataFrame h q (bufBytes s .pld n.toNat) := received.trans frame
  replace results : s3.results = checkFrame h s1.txlen s1.txFrame := results
  rw [frame, txlen, checkFrame_dataFrame fits (length_bufBytes s .pld _) high] at results
  refine ⟨s1, s2, s3, built, looped, checked, congrArg CheckResult.crcOk results,
    congrArg CheckResult.teardown results, rxValid, congrArg CheckResult.info results, fun k hk => ?_⟩
  calc s3.buf .rxf (h.toNat + k)
      = s3.rxFrame.getD (h.toNat + k) 0 := (State.rxFrame_getD (by omega) (by omega)).symm
    _ = (bufBytes s .pld n.toNat).getD k 0 := by
        rw [received, dataFrame_getD_payload h q (by rwa [length_bufBytes])]
    _ = s.buf .pld k := getD_bufBytes s .pld hk

/-- INJECT accepts a frame of two bytes or more that is not the sentinel (42_check_and_test.md R166). -/
theorem firstCause_inject_of_txFrame {s : State} (low : 2 ≤ s.txlen.toNat) (frame : s.txFrame ≠ teardownFrame) :
    s.firstCause .inject = none := by
  rw [firstCause_inject, if_neg (Nat.not_lt.2 low), if_neg]
  rintro ⟨len, found⟩
  refine frame ?_
  rw [State.txFrame, len]
  exact (s.bytes_eq_bufBytes .txf (by decide)).trans found

/-- The completion of INJECT leaves a valid transmit frame with the fold `2A`. -/
theorem inject_txFrame {s : State} {p : Pending} (hp : s.pend = some p) (low : 2 ≤ s.txlen.toNat)
    (fits : s.txlen.toNat ≤ 32) (valid : crc8 s.txFrame = 0) :
    ∃ t : State, exec .inject s = .next t ∧ t.txlen = s.txlen ∧ crc8 t.txFrame = 0x2A := by
  have before : s.txFrame = bufBytes s .txf s.txlen.toNat := s.bytes_eq_bufBytes .txf fits
  have after : (injectEffect s).txFrame = bufBytes (injectEffect s) .txf s.txlen.toNat :=
    (injectEffect s).bytes_eq_bufBytes .txf fits
  exact ⟨completed (injectEffect s), exec_completes hp, rfl,
    (congrArg crc8 after).trans (crc8_injectEffect low fits (before ▸ valid))⟩

/-- Settles O28: the data frame folds to 0, so the injected one folds to `2A`, which is neither 0 nor the sentinel's
fold. -/
theorem injectedDataFailsCheck : Obligations.InjectedDataFailsCheck := by
  intro s p h q n hp fits low high
  have short := Bool.toNat_le h
  obtain ⟨s1, built, frame, -, length⟩ := exec_frameData_txFrame q hp high
  have legal : s1.firstCause .inject = none :=
    firstCause_inject_of_txFrame (by omega) (frame ▸ dataFrame_ne_teardownFrame h q _)
  have valid : crc8 s1.txFrame = 0 := (congrArg crc8 frame).trans (crc8_dataFrame h q _)
  have small : s1.txlen.toNat ≤ 32 := by omega
  obtain ⟨s2, injected, txlen, fold⟩ :=
    inject_txFrame (s := { s1 with pend := some p }) (p := p) rfl (length.ge.trans' (by omega)) small valid
  obtain ⟨s3, s4, looped, checked, results, rxValid, rxlen, received⟩ :=
    loopback_then_check (s := { s2 with pend := some p }) (p := p) h rfl (txlen ▸ small)
  replace rxlen : s4.rxlen = s1.txlen := rxlen.trans txlen
  replace received : crc8 s4.rxFrame = 0x2A := (congrArg crc8 received).trans fold
  replace results : s4.results = checkFrame h s2.txlen s2.txFrame := results
  rw [checkFrame_of_not_teardown h fun found => ne_teardownFrame_of_crc8 (fold ▸ by decide) found.2, fold] at results
  refine ⟨s1, s2, s3, s4, built, legal, injected, looped, checked, ?_, congrArg CheckResult.crcOk results,
    congrArg CheckResult.teardown results, rxValid⟩
  rwa [← s4.bytes_eq_bufBytes .rxf (rxlen ▸ small)]

end Sys2Proof.Machine
end

section
/-! PROOF. The handshake of R257: a legal command written to an idle block that is then left alone (70_reset_and_hazards.md
R250, R251, R252, R257). -/

namespace Sys2Proof.Machine

open Sys2Proof.Claims Sys2Proof.Laws

/-- The state with other values in the model's own fields (logs 1 and 2). -/
def State.withOwn (s : State) (inputs : List Inputs) (cycle : Nat) (out : Outputs) : State :=
  { s with inputs := inputs, cycle := cycle, out := out }

/-- The state with an accepted word that has `n` cycles to wait (70_reset_and_hazards.md R250). -/
def State.waitingFor (s : State) (w : Word) (n : Nat) : State :=
  { s with pend := some ⟨w, n⟩, status := { s.status with done := false } }

/-- The step that writes a legal command's word to an idle block accepts it. -/
theorem step_of_written {s : State} {i : Instr} {xs : List Inputs} (idleBlock : s.pend = none)
    (legal : s.firstCause i = none) (hin : s.inputs = cmdWrite (encode i) :: xs) :
    ∃ o, step s = .next ((s.waitingFor (encode i) (lat s (encode i))).withOwn xs (s.cycle + 1) o) := by
  have kept : ({ s with inputs := xs, cycle := s.cycle + 1 } : State).firstCause i = s.firstCause i :=
    firstCause_congr i rfl rfl rfl rfl rfl
  have accepts := exec_accepts (s := { s with inputs := xs, cycle := s.cycle + 1 }) idleBlock (kept.trans legal)
  exact ⟨_, (stepRunsWrittenCommand s _ i _ xs hin ⟨rfl, rfl⟩ idleBlock (decode_encode i)).trans
    (congrArg (andThen · _) accepts)⟩

/-! ### Idle cycles (30_encoding.md R100) -/

@[simp] theorem takeInputs_withOwn (s : State) (x : Inputs) (xs : List Inputs) (c : Nat) (o : Outputs) :
    (s.withOwn (x :: xs) c o).takeInputs = s.withOwn xs (c + 1) o := rfl

/-- An idle cycle is the engine's part alone. -/
theorem step_idle {s : State} {xs : List Inputs} (hin : s.inputs = idle :: xs) :
    step s = .next { s.takeInputs.advanced with out := s.takeInputs.outputs idle } := by
  rw [step_of_inputs hin, cycled_of_run _ rfl]
  rfl

section
variable (s : State) (w : Word) (rest : List Inputs) (c : Nat) (o : Outputs)

/-- A waiting command's idle cycle takes one off its count and does nothing else. -/
theorem step_idle_of_waiting {n : Nat} (more : 1 < n) :
    ∃ o', step ((s.waitingFor w n).withOwn (idle :: rest) c o) =
      .next ((s.waitingFor w (n - 1)).withOwn rest (c + 1) o') := by
  have waits := advanced_of_waiting (s := (s.waitingFor w n).withOwn rest (c + 1) o) (p := ⟨w, n⟩) rfl more
  rw [step_idle rfl, takeInputs_withOwn, waits]
  exact ⟨_, rfl⟩

/-- No command's effects read or write `DONE` or the model's own fields, so its completion is the same up to these. -/
theorem effectsOf_finish_of_waitingFor (i : Instr) (n : Nat) :
    (effectsOf i ((s.waitingFor w n).withOwn rest c o)).finish =
      (effectsOf i { s with pend := some ⟨w, n⟩ }).finish.withOwn rest c o := by
  cases i <;> rfl

/-- A due command's idle cycle is its completion. -/
theorem step_idle_of_due {i : Instr} (decoded : decode w = .ok i) :
    ∃ o', step ((s.waitingFor w 1).withOwn (idle :: rest) c o) =
      .next ((effectsOf i { s with pend := some ⟨w, 1⟩ }).finish.withOwn rest (c + 1) o') := by
  have completes :=
    advanced_of_due (s := (s.waitingFor w 1).withOwn rest (c + 1) o) (p := ⟨w, 1⟩) rfl le_rfl decoded
  rw [step_idle rfl, takeInputs_withOwn, completes, effectsOf_finish_of_waitingFor]
  exact ⟨_, rfl⟩

end

/-- Over fewer idle cycles than its count a command waits on, and everything else in the state stays. -/
theorem run_idle_of_waiting (s : State) (w : Word) {n k : Nat} (more : k < n) (rest : List Inputs) (c : Nat)
    (o : Outputs) :
    ∃ o', RunsTo k ((s.waitingFor w n).withOwn (List.replicate k idle ++ rest) c o)
      ((s.waitingFor w (n - k)).withOwn rest (c + k) o') := by
  induction k generalizing rest with
  | zero => exact ⟨o, rfl⟩
  | succ k ih =>
    obtain ⟨o', reach⟩ := ih (by omega) (idle :: rest)
    obtain ⟨o'', next⟩ := step_idle_of_waiting s w rest (c + k) o' (n := n - k) (by omega)
    rw [List.replicate_succ', List.append_assoc, List.singleton_append]
    exact ⟨o'', run_snoc reach next⟩

/-! ### From the write to the completion -/

section
variable {s : State} {i : Instr} {rest : List Inputs} (idleBlock : s.pend = none) (legal : s.firstCause i = none)
  (hin : s.inputs = cmdWrite (encode i) :: (List.replicate (lat s (encode i)) idle ++ rest))
include idleBlock legal hin

/-- The state `k` idle cycles after the write, for `k < LAT`: the start state with the command waiting. -/
theorem run_of_written {k : Nat} (hk : k < lat s (encode i)) :
    ∃ o, RunsTo (k + 1) s ((s.waitingFor (encode i) (lat s (encode i) - k)).withOwn
      (List.replicate (lat s (encode i) - k) idle ++ rest) (s.cycle + 1 + k) o) := by
  have inTwo : List.replicate (lat s (encode i)) idle ++ rest =
      List.replicate k idle ++ (List.replicate (lat s (encode i) - k) idle ++ rest) := by
    rw [← List.append_assoc, List.replicate_append_replicate, Nat.add_sub_cancel' hk.le]
  rw [inTwo] at hin
  obtain ⟨o, written⟩ := step_of_written idleBlock legal hin
  obtain ⟨o', reach⟩ := run_idle_of_waiting s (encode i) hk
    (List.replicate (lat s (encode i) - k) idle ++ rest) (s.cycle + 1) o
  exact ⟨o', (run_succ k written).trans reach⟩

/-- The state after the `LAT` idle cycles: what the command's completion leaves. -/
theorem run_of_written_completes :
    ∃ o, RunsTo (lat s (encode i) + 1) s ((effectsOf i { s with pend := some ⟨encode i, 1⟩ }).finish.withOwn rest
      (s.cycle + lat s (encode i) + 1) o) := by
  obtain ⟨k, hk⟩ : ∃ k, lat s (encode i) = k + 1 := ⟨_, rfl⟩
  obtain ⟨o, reach⟩ := run_of_written idleBlock legal hin (k := k) (by omega)
  rw [hk, Nat.add_sub_cancel_left] at reach
  obtain ⟨o', last⟩ := step_idle_of_due s (encode i) rest (s.cycle + 1 + k) o (decode_encode i)
  rw [hk, show s.cycle + (k + 1) + 1 = s.cycle + 1 + k + 1 by omega]
  exact ⟨o', run_snoc reach last⟩

end

/-- Settles O40: the write accepts the command, each idle cycle takes one off its count, and the one that finds it at 1
completes it. -/
theorem writtenCommandTakesEffect : Obligations.WrittenCommandTakesEffect := by
  intro s i rest idleBlock legal hin
  refine ⟨fun k low high => ?_, ?_⟩
  · obtain ⟨o, reach⟩ := run_of_written idleBlock legal hin (k := k - 1) (by omega)
    rw [Nat.sub_add_cancel low] at reach
    exact ⟨_, reach, rfl, rfl⟩
  · obtain ⟨o, reach⟩ := run_of_written_completes idleBlock legal hin
    exact ⟨_, _, reach, exec_of_pending i rfl, rfl, rfl, rfl⟩

end Sys2Proof.Machine
end

section
/-! PROOF. The bus map: what every offset reads as, and what the register writes store (20_memory.md R61, R70, R78;
10_state.md section 3); what a reset cycle outputs (70_reset_and_hazards.md R240). -/

namespace Sys2Proof.Machine

open Sys2Proof.Claims

/-! ### Reads (20_memory.md R70, R78) -/

/-- Settles O49: a read asks for no effect. -/
theorem readsHaveNoSideEffects : Obligations.ReadsHaveNoSideEffects := by
  intro s x q hq hw
  have noEffect : ∀ u, s.requested x.tick (some q) u = u := fun u => by simp [State.requested, hw]
  have answer : s.respond (some q) = s.respond x.req := by rw [hq.2]
  exact cycleAdds_of_requested hq noEffect answer fun _ _ _ => rfl

theorem Ctrl.toWord_eq_append (c : Ctrl) :
    c.toWord = 0#28 ++ BitVec.ofBool c.ieExh ++ BitVec.ofBool c.ieTmo ++ BitVec.ofBool c.ieErr ++
      BitVec.ofBool c.ieDone := by
  obtain ⟨ieDone, ieErr, ieTmo, ieExh⟩ := c
  revert ieDone ieErr ieTmo ieExh
  decide

section
variable (s : State) {q : Request} (hw : q.write = false)
include hw

/-- The read of an offset that the map gives a register. -/
theorem State.respond_of_register {a : BitVec 8} (t : Target) (target : Target.ofAddr a = t)
    (aligned : a.extractLsb' 0 2 = 0) (mapped : t ≠ .unmapped) (ha : q.addr = a) :
    s.respond (some q) = ⟨s.readWord t, false⟩ := by
  subst ha target
  exact s.respond_of_read hw aligned mapped

/-- The read of a word of a buffer. -/
theorem State.respond_of_bufWord (b : Buf) {j : Nat} (hj : j < 8) (ha : q.addr = BitVec.ofNat 8 (b.base + 4 * j)) :
    s.respond (some q) = ⟨s.readWord (.buf b (4 * j)), false⟩ :=
  s.respond_of_register hw _ (bufWrite_target 0 0 hj) (bufWrite_aligned 0 0 hj) nofun ha

end

/-- Settles O50: offset by offset, the map's target and its image. -/
theorem readsReturnRegisters : Obligations.ReadsReturnRegisters := by
  intro s q hw answers
  have read {a : BitVec 8} := s.respond_of_register (a := a) hw
  refine ⟨read .id rfl rfl nofun, fun ha => ?_, read .cmd rfl rfl nofun, read .status rfl rfl nofun,
    read .crc rfl rfl nofun, read .txlen rfl rfl nofun, read .rxlen rfl rfl nofun, read .rxinfo rfl rfl nofun,
    read .table rfl rfl nofun, read .tload rfl rfl nofun, read .tcnt rfl rfl nofun, read .retry rfl rfl nofun,
    read .err rfl rfl nofun, fun b j hj ha => s.respond_of_bufWord hw b hj ha⟩
  rw [← s.ctrl.toWord_eq_append]
  exact read .ctrl rfl rfl nofun ha

/-! ### Register writes (10_state.md section 3; 70_reset_and_hazards.md R255) -/

/-- The request that writes a word to a register, with all strobes. -/
def regWrite (a : Nat) (w : Word) : Request :=
  ⟨true, BitVec.ofNat 8 a, w, 0xF⟩

/-- A write to a writable register other than `CMD`, on an idle block where it is gated, adds the register's update to the
cycle. -/
theorem cycleAdds_of_regWrite {s : State} {x : Inputs} {a : Nat} {w : Word} {f : State → State} {t : Target}
    (hq : Requests x (regWrite a w)) (target : (regWrite a w).target = t)
    (aligned : (BitVec.ofNat 8 a).extractLsb' 0 2 = 0) (writable : t.readOnly = false ∧ t ≠ .unmapped ∧ t ≠ .cmd)
    (free : t.gated = true → s.pend = none)
    (update : ∀ u, u.writeTarget s.completes (x.tick && s.expiring) t w 0xF = f u)
    (blind : ∀ u o p, ({ f { u with out := o } with out := p } : State) = { f u with out := p }) :
    CycleAdds s x f ⟨0, false⟩ := by
  obtain ⟨notReadOnly, mapped, notCmd⟩ := writable
  have hw : (regWrite a w).write = true := rfl
  have strobes : (regWrite a w).wstrb = 0xF := rfl
  have ok : (regWrite a w).busErr = false := by
    rw [Bool.eq_false_iff, Ne, Request.busErr_iff, target]
    simp [show (regWrite a w).addr.extractLsb' 0 2 = 0 from aligned, mapped, notReadOnly, strobes]
  have passes : (t.gated && s.busy) = false := by
    cases gated : t.gated with
    | false => rfl
    | true => simp [State.busy, free gated]
  refine cycleAdds_of_requested hq (fun u => ?_) (s.respond_of_write hw ok) blind
  rw [← update u]
  simp only [State.requested, hw, ok, strobes, target, passes, notCmd]
  rfl

/-- Settles O52: four registers that are not gated. -/
theorem ungatedRegisterWrites : Obligations.UngatedRegisterWrites := by
  intro s x a w hq
  refine ⟨?_, ?_, ?_, ?_⟩ <;> rintro rfl
  · exact cycleAdds_of_regWrite (t := .ctrl) hq rfl (by decide) (by decide) nofun (fun _ => rfl) fun _ _ _ => rfl
  · exact cycleAdds_of_regWrite (t := .table) hq rfl (by decide) (by decide) nofun (fun _ => rfl) fun _ _ _ => rfl
  · exact cycleAdds_of_regWrite (t := .retry) hq rfl (by decide) (by decide) nofun (fun _ => rfl) fun _ _ _ => rfl
  · exact cycleAdds_of_regWrite (t := .err) hq rfl (by decide) (by decide) nofun (fun _ => rfl) fun _ _ _ => rfl

/-- Settles O53: two gated registers of an idle block. -/
theorem gatedRegisterWrites : Obligations.GatedRegisterWrites := by
  intro s x a w hq idle
  refine ⟨?_, ?_⟩ <;> rintro rfl
  · exact cycleAdds_of_regWrite (t := .rxlen) hq rfl (by decide) (by decide) (fun _ => idle) (fun _ => rfl)
      fun _ _ _ => rfl
  · exact cycleAdds_of_regWrite (t := .tload) hq rfl (by decide) (by decide) (fun _ => idle) (fun _ => rfl)
      fun _ _ _ => rfl

/-! ### The reset cycle -/

/-- Settles O60: a reset cycle is `resetCycle` with the outputs of its start; no byte of the buffers has been written
after it. -/
theorem resetCycleOutputs : Obligations.ResetCycleOutputs := by
  intro s x reset
  have out : s.outputs x = ⟨⟨0, false⟩, s.irq⟩ := by rw [State.outputs, if_pos reset]
  refine ⟨{ s.resetCycle with out := s.outputs x }, ?_, out, rfl, rfl, rfl, fun _ => rfl⟩
  rw [cycleWith_eq, cycled_of_reset s reset]

end Sys2Proof.Machine
end
